-- ==== Sys2Proof/Word.lean ====
section
/-! DEFINITION. The two data widths of the hardware (00_scope.md R5). -/

namespace Sys2Proof

/-- A byte: the addressable unit and the width of the byte registers. -/
abbrev Byte := BitVec 8

/-- A 16-bit word: an address, SP, PC, a pair or a 16-bit immediate. -/
abbrev Word := BitVec 16

end Sys2Proof
end

