-- ==== Sys2Proof/Syntax.lean ====
section
/-! DEFINITION. The instructions as syntax: register, flag and condition names, the handlers an opcode byte
selects (`Op`, 00_scope.md R9) and the instructions with their operand bytes (`Instr`, one constructor per row of the
opcode table, 30_encoding.md R66). -/

namespace Sys2Proof

/-- The eight byte registers (10_state.md R11). -/
inductive Reg8 where
  | a | f | b | c | d | e | h | l
deriving DecidableEq, Repr

/-- The 16-bit operands: the three virtual pairs and SP (10_state.md R14, R17; 30_encoding.md R63). -/
inductive Reg16 where
  | bc | de | hl | sp
deriving DecidableEq, Repr

/-- The four flags of F (10_state.md R21). -/
inductive Flag where
  | z | n | h | c
deriving DecidableEq, Repr

/-- The conditions of the conditional jumps (44_branch.md R176). -/
inductive Cond where
  | nz | z | nc | c
deriving DecidableEq, Repr

/-- The three instruction formats, of 1, 2 and 3 bytes (30_encoding.md R60). -/
inductive Format where
  | f1 | f2 | f3
deriving DecidableEq, Repr

/-- Whether the source specifies an instruction (S) or the spec adds it (X) (00_scope.md R9). -/
inductive Tier where
  | s | x
deriving DecidableEq, Repr

/-- The handlers: what an opcode byte selects, without operand bytes (30_encoding.md R64). -/
inductive Op where
  | nop | stop | halt | ldBCd16 | ldDEd16 | ldHLd16 | ldSPd16 | ldBd8 | ldCd8
  | ldDd8 | ldEd8 | ldHd8 | ldLd8 | ldAd8 | ldAtBCA | ldAtDEA | ldAtHLA | ldAAtBC
  | ldAAtDE | ldAAtHL | ldAtA16SP | incB | incC | incD | incE | incH | incL
  | incA | decB | decC | decD | decE | decH | decL | decA | rlca
  | xorA | incBC | incDE | incHL | incSP | decBC | decDE | decHL | decSP
  | addHLBC | addHLDE | addHLHL | addHLSP | jrNZ | jrZ | jrNC | jrC | jr
deriving DecidableEq, Repr

/-- The instructions with their operands, in the order of the spec's rules. A 16-bit immediate is held as the word its
two bytes form (30_encoding.md R62); STOP keeps its skipped second byte (40_control_misc.md R81). -/
inductive Instr where
  /-- NOP, opcode 0x00 by default (R80). -/
  | nop
  /-- STOP, opcode 0x10 by default (R81). -/
  | stop (skipped : Byte)
  /-- HALT, opcode 0x76 by default (R82). -/
  | halt
  /-- LD BC,d16, opcode 0x01 by default (R90). -/
  | ldBCd16 (d16 : Word)
  /-- LD DE,d16, opcode 0x11 by default (R91). -/
  | ldDEd16 (d16 : Word)
  /-- LD HL,d16, opcode 0x21 by default (R92). -/
  | ldHLd16 (d16 : Word)
  /-- LD SP,d16, opcode 0x31 by default (R93). -/
  | ldSPd16 (d16 : Word)
  /-- LD B,d8, opcode 0x06 by default (R94). -/
  | ldBd8 (d8 : Byte)
  /-- LD C,d8, opcode 0x0E by default (R95). -/
  | ldCd8 (d8 : Byte)
  /-- LD D,d8, opcode 0x16 by default (R96). -/
  | ldDd8 (d8 : Byte)
  /-- LD E,d8, opcode 0x1E by default (R97). -/
  | ldEd8 (d8 : Byte)
  /-- LD H,d8, opcode 0x26 by default (R98). -/
  | ldHd8 (d8 : Byte)
  /-- LD L,d8, opcode 0x2E by default (R99). -/
  | ldLd8 (d8 : Byte)
  /-- LD A,d8, opcode 0x3E by default (R100). -/
  | ldAd8 (d8 : Byte)
  /-- LD (BC),A, opcode 0x02 by default (R101). -/
  | ldAtBCA
  /-- LD (DE),A, opcode 0x12 by default (R102). -/
  | ldAtDEA
  /-- LD (HL),A, opcode 0x77 by default (R103). -/
  | ldAtHLA
  /-- LD A,(BC), opcode 0x0A by default (R104). -/
  | ldAAtBC
  /-- LD A,(DE), opcode 0x1A by default (R105). -/
  | ldAAtDE
  /-- LD A,(HL), opcode 0x7E by default (R106). -/
  | ldAAtHL
  /-- LD (a16),SP, opcode 0x08 by default (R107). -/
  | ldAtA16SP (a16 : Word)
  /-- INC B, opcode 0x04 by default (R120). -/
  | incB
  /-- INC C, opcode 0x0C by default (R121). -/
  | incC
  /-- INC D, opcode 0x14 by default (R122). -/
  | incD
  /-- INC E, opcode 0x1C by default (R123). -/
  | incE
  /-- INC H, opcode 0x24 by default (R124). -/
  | incH
  /-- INC L, opcode 0x2C by default (R125). -/
  | incL
  /-- INC A, opcode 0x3C by default (R126). -/
  | incA
  /-- DEC B, opcode 0x05 by default (R127). -/
  | decB
  /-- DEC C, opcode 0x0D by default (R128). -/
  | decC
  /-- DEC D, opcode 0x15 by default (R129). -/
  | decD
  /-- DEC E, opcode 0x1D by default (R130). -/
  | decE
  /-- DEC H, opcode 0x25 by default (R131). -/
  | decH
  /-- DEC L, opcode 0x2D by default (R132). -/
  | decL
  /-- DEC A, opcode 0x3D by default (R133). -/
  | decA
  /-- RLCA, opcode 0x07 by default (R134). -/
  | rlca
  /-- XOR A, opcode 0xAF by default (R135). -/
  | xorA
  /-- INC BC, opcode 0x03 by default (R150). -/
  | incBC
  /-- INC DE, opcode 0x13 by default (R151). -/
  | incDE
  /-- INC HL, opcode 0x23 by default (R152). -/
  | incHL
  /-- INC SP, opcode 0x33 by default (R153). -/
  | incSP
  /-- DEC BC, opcode 0x0B by default (R154). -/
  | decBC
  /-- DEC DE, opcode 0x1B by default (R155). -/
  | decDE
  /-- DEC HL, opcode 0x2B by default (R156). -/
  | decHL
  /-- DEC SP, opcode 0x3B by default (R157). -/
  | decSP
  /-- ADD HL,BC, opcode 0x09 by default (R158). -/
  | addHLBC
  /-- ADD HL,DE, opcode 0x19 by default (R159). -/
  | addHLDE
  /-- ADD HL,HL, opcode 0x29 by default (R160). -/
  | addHLHL
  /-- ADD HL,SP, opcode 0x39 by default (R161). -/
  | addHLSP
  /-- JR NZ,e8, opcode 0x20 by default (R170). -/
  | jrNZ (e8 : Byte)
  /-- JR Z,e8, opcode 0x28 by default (R171). -/
  | jrZ (e8 : Byte)
  /-- JR NC,e8, opcode 0x30 by default (R172). -/
  | jrNC (e8 : Byte)
  /-- JR C,e8, opcode 0x38 by default (R173). -/
  | jrC (e8 : Byte)
  /-- JR e8, opcode 0x18 by default (R174). -/
  | jr (e8 : Byte)
deriving DecidableEq, Repr

end Sys2Proof
end

