-- ==== Sys2Proof/Config.lean ====
section
/-! DEFINITION. What is fixed when the engine is constructed (00_scope.md R6, 10_state.md R27). The spec leaves no value
of a step undefined, so there is no free value here. -/

namespace Sys2Proof

/-- A partial map from opcode byte to handler, as rows; the first row for a byte counts (note 1). -/
abbrev OpcodeMap := List (Byte × Op)

/-- The four parameters of 00_scope.md R6. Plain data, so that a state that carries it can be compared. -/
structure Config where
  /-- `BUDGET`, the per-frame cycle budget; construction refuses one below 1 (60_exceptions.md R204). -/
  budget : Nat
  /-- `UNMAPPED_AS_NOP`: an opcode byte with no handler runs as NOP (30_encoding.md R69). -/
  unmappedAsNop : Bool
  /-- `OPCODE_MAP`: which byte selects which handler (30_encoding.md R64, R66). -/
  opcodeMap : OpcodeMap
  /-- `HALT_OPCODE`: the byte of HALT, if there is one (40_control_misc.md R82). -/
  haltOpcode : Option Byte
deriving DecidableEq, Repr

end Sys2Proof
end

