-- ==== Sys2Proof/WellFormed.lean ====
section
/-! DEFINITION. Checks: which configurations are accepted and give every handler they name a byte of its own, and
which instructions a configuration can encode. Operand ranges need no check: an operand is a `Byte` or a `Word`. -/

namespace Sys2Proof

/-- No byte has two rows. -/
def OpcodeMap.distinct : OpcodeMap → Bool
  | [] => true
  | (b, _) :: rest => rest.all (fun row => row.1 != b) && OpcodeMap.distinct rest

/-- HALT_OPCODE, when present, is not the byte of another handler (note 2). -/
def Config.haltFree (cfg : Config) : Bool :=
  cfg.opcodeMap.all (fun row => row.2 == .halt || cfg.haltOpcode != some row.1)

/-- A budget of at least 1 (60_exceptions.md R204), one row a byte, and a HALT_OPCODE of its own. -/
def Config.wf (cfg : Config) : Bool :=
  decide (1 ≤ cfg.budget) && OpcodeMap.distinct cfg.opcodeMap && cfg.haltFree

/-- The configuration names the handler: HALT by HALT_OPCODE, any other by a row of OPCODE_MAP. -/
def Config.names (cfg : Config) (op : Op) : Bool :=
  if op = .halt then cfg.haltOpcode.isSome else cfg.opcodeMap.any (fun row => row.2 == op)

end Sys2Proof
end

