-- ==== Sys2Proof/Decode.lean ====
section
/-! DEFINITION. The opcode map, the decoder and the encoder (30_encoding.md). Decoding looks at the opcode byte and the
configuration only (R64, R70; 49_engine.md R182); operand bytes are taken as they stand. -/

namespace Sys2Proof

/-- The word `hi ++ lo` (00_scope.md R7; 20_memory.md R44). -/
def wordOf (hi lo : Byte) : Word := hi ++ lo

/-- Bits 15:8. -/
def hiByte (w : Word) : Byte := w.extractLsb' 8 8

/-- Bits 7:0. -/
def loByte (w : Word) : Byte := w.extractLsb' 0 8

/-- The format of each handler (30_encoding.md R61, R66). -/
def Op.format : Op → Format
  | .nop | .halt | .ldAtBCA | .ldAtDEA | .ldAtHLA | .ldAAtBC | .ldAAtDE | .ldAAtHL
  | .incB | .incC | .incD | .incE | .incH | .incL | .incA | .decB
  | .decC | .decD | .decE | .decH | .decL | .decA | .rlca | .xorA
  | .incBC | .incDE | .incHL | .incSP | .decBC | .decDE | .decHL | .decSP
  | .addHLBC | .addHLDE | .addHLHL | .addHLSP => .f1
  | .stop | .ldBd8 | .ldCd8 | .ldDd8 | .ldEd8 | .ldHd8 | .ldLd8 | .ldAd8
  | .jrNZ | .jrZ | .jrNC | .jrC | .jr => .f2
  | .ldBCd16 | .ldDEd16 | .ldHLd16 | .ldSPd16 | .ldAtA16SP => .f3

/-- The tier of each handler (00_scope.md R9; the table of 30_encoding.md R66). -/
def Op.tier : Op → Tier
  | .nop | .stop | .ldBCd16 | .ldDEd16 | .ldHLd16 | .ldBd8 | .ldCd8 | .ldDd8
  | .ldEd8 | .ldHd8 | .ldLd8 | .ldAd8 | .ldAtBCA | .ldAtDEA | .ldAtHLA | .ldAAtBC
  | .ldAAtDE | .ldAAtHL | .ldAtA16SP | .incB | .incC | .incD | .incE | .incH
  | .incL | .incA | .decB | .decC | .decD | .decE | .decH | .decL
  | .decA | .rlca | .xorA | .incBC | .incDE | .incHL | .decBC | .decDE
  | .decHL | .addHLBC | .addHLDE | .addHLHL | .jrNZ | .jrZ | .jrNC | .jrC => .s
  | .halt | .ldSPd16 | .incSP | .decSP | .addHLSP | .jr => .x

/-- The mnemonic of each handler (30_encoding.md R66, R71). -/
def Op.mnemonic : Op → String
  | .nop => "NOP"
  | .stop => "STOP"
  | .halt => "HALT"
  | .ldBCd16 => "LD BC,d16"
  | .ldDEd16 => "LD DE,d16"
  | .ldHLd16 => "LD HL,d16"
  | .ldSPd16 => "LD SP,d16"
  | .ldBd8 => "LD B,d8"
  | .ldCd8 => "LD C,d8"
  | .ldDd8 => "LD D,d8"
  | .ldEd8 => "LD E,d8"
  | .ldHd8 => "LD H,d8"
  | .ldLd8 => "LD L,d8"
  | .ldAd8 => "LD A,d8"
  | .ldAtBCA => "LD (BC),A"
  | .ldAtDEA => "LD (DE),A"
  | .ldAtHLA => "LD (HL),A"
  | .ldAAtBC => "LD A,(BC)"
  | .ldAAtDE => "LD A,(DE)"
  | .ldAAtHL => "LD A,(HL)"
  | .ldAtA16SP => "LD (a16),SP"
  | .incB => "INC B"
  | .incC => "INC C"
  | .incD => "INC D"
  | .incE => "INC E"
  | .incH => "INC H"
  | .incL => "INC L"
  | .incA => "INC A"
  | .decB => "DEC B"
  | .decC => "DEC C"
  | .decD => "DEC D"
  | .decE => "DEC E"
  | .decH => "DEC H"
  | .decL => "DEC L"
  | .decA => "DEC A"
  | .rlca => "RLCA"
  | .xorA => "XOR A"
  | .incBC => "INC BC"
  | .incDE => "INC DE"
  | .incHL => "INC HL"
  | .incSP => "INC SP"
  | .decBC => "DEC BC"
  | .decDE => "DEC DE"
  | .decHL => "DEC HL"
  | .decSP => "DEC SP"
  | .addHLBC => "ADD HL,BC"
  | .addHLDE => "ADD HL,DE"
  | .addHLHL => "ADD HL,HL"
  | .addHLSP => "ADD HL,SP"
  | .jrNZ => "JR NZ,e8"
  | .jrZ => "JR Z,e8"
  | .jrNC => "JR NC,e8"
  | .jrC => "JR C,e8"
  | .jr => "JR e8"

/-- The instruction a handler makes of the two bytes after its opcode byte; it takes only those its format has
(30_encoding.md R60, R62). -/
def Op.instr (lo hi : Byte) : Op → Instr
  | .nop => .nop
  | .stop => .stop lo
  | .halt => .halt
  | .ldBCd16 => .ldBCd16 (wordOf hi lo)
  | .ldDEd16 => .ldDEd16 (wordOf hi lo)
  | .ldHLd16 => .ldHLd16 (wordOf hi lo)
  | .ldSPd16 => .ldSPd16 (wordOf hi lo)
  | .ldBd8 => .ldBd8 lo
  | .ldCd8 => .ldCd8 lo
  | .ldDd8 => .ldDd8 lo
  | .ldEd8 => .ldEd8 lo
  | .ldHd8 => .ldHd8 lo
  | .ldLd8 => .ldLd8 lo
  | .ldAd8 => .ldAd8 lo
  | .ldAtBCA => .ldAtBCA
  | .ldAtDEA => .ldAtDEA
  | .ldAtHLA => .ldAtHLA
  | .ldAAtBC => .ldAAtBC
  | .ldAAtDE => .ldAAtDE
  | .ldAAtHL => .ldAAtHL
  | .ldAtA16SP => .ldAtA16SP (wordOf hi lo)
  | .incB => .incB
  | .incC => .incC
  | .incD => .incD
  | .incE => .incE
  | .incH => .incH
  | .incL => .incL
  | .incA => .incA
  | .decB => .decB
  | .decC => .decC
  | .decD => .decD
  | .decE => .decE
  | .decH => .decH
  | .decL => .decL
  | .decA => .decA
  | .rlca => .rlca
  | .xorA => .xorA
  | .incBC => .incBC
  | .incDE => .incDE
  | .incHL => .incHL
  | .incSP => .incSP
  | .decBC => .decBC
  | .decDE => .decDE
  | .decHL => .decHL
  | .decSP => .decSP
  | .addHLBC => .addHLBC
  | .addHLDE => .addHLDE
  | .addHLHL => .addHLHL
  | .addHLSP => .addHLSP
  | .jrNZ => .jrNZ lo
  | .jrZ => .jrZ lo
  | .jrNC => .jrNC lo
  | .jrC => .jrC lo
  | .jr => .jr lo

/-- The handler an instruction runs. -/
def Instr.op : Instr → Op
  | .nop => .nop
  | .stop _ => .stop
  | .halt => .halt
  | .ldBCd16 _ => .ldBCd16
  | .ldDEd16 _ => .ldDEd16
  | .ldHLd16 _ => .ldHLd16
  | .ldSPd16 _ => .ldSPd16
  | .ldBd8 _ => .ldBd8
  | .ldCd8 _ => .ldCd8
  | .ldDd8 _ => .ldDd8
  | .ldEd8 _ => .ldEd8
  | .ldHd8 _ => .ldHd8
  | .ldLd8 _ => .ldLd8
  | .ldAd8 _ => .ldAd8
  | .ldAtBCA => .ldAtBCA
  | .ldAtDEA => .ldAtDEA
  | .ldAtHLA => .ldAtHLA
  | .ldAAtBC => .ldAAtBC
  | .ldAAtDE => .ldAAtDE
  | .ldAAtHL => .ldAAtHL
  | .ldAtA16SP _ => .ldAtA16SP
  | .incB => .incB
  | .incC => .incC
  | .incD => .incD
  | .incE => .incE
  | .incH => .incH
  | .incL => .incL
  | .incA => .incA
  | .decB => .decB
  | .decC => .decC
  | .decD => .decD
  | .decE => .decE
  | .decH => .decH
  | .decL => .decL
  | .decA => .decA
  | .rlca => .rlca
  | .xorA => .xorA
  | .incBC => .incBC
  | .incDE => .incDE
  | .incHL => .incHL
  | .incSP => .incSP
  | .decBC => .decBC
  | .decDE => .decDE
  | .decHL => .decHL
  | .decSP => .decSP
  | .addHLBC => .addHLBC
  | .addHLDE => .addHLDE
  | .addHLHL => .addHLHL
  | .addHLSP => .addHLSP
  | .jrNZ _ => .jrNZ
  | .jrZ _ => .jrZ
  | .jrNC _ => .jrNC
  | .jrC _ => .jrC
  | .jr _ => .jr

/-- The operand bytes of an instruction, in ascending address order (30_encoding.md R60, R62; 20_memory.md R44). -/
def Instr.operandBytes : Instr → List Byte
  | .nop => []
  | .stop skipped => [skipped]
  | .halt => []
  | .ldBCd16 d16 => [loByte d16, hiByte d16]
  | .ldDEd16 d16 => [loByte d16, hiByte d16]
  | .ldHLd16 d16 => [loByte d16, hiByte d16]
  | .ldSPd16 d16 => [loByte d16, hiByte d16]
  | .ldBd8 d8 => [d8]
  | .ldCd8 d8 => [d8]
  | .ldDd8 d8 => [d8]
  | .ldEd8 d8 => [d8]
  | .ldHd8 d8 => [d8]
  | .ldLd8 d8 => [d8]
  | .ldAd8 d8 => [d8]
  | .ldAtBCA => []
  | .ldAtDEA => []
  | .ldAtHLA => []
  | .ldAAtBC => []
  | .ldAAtDE => []
  | .ldAAtHL => []
  | .ldAtA16SP a16 => [loByte a16, hiByte a16]
  | .incB => []
  | .incC => []
  | .incD => []
  | .incE => []
  | .incH => []
  | .incL => []
  | .incA => []
  | .decB => []
  | .decC => []
  | .decD => []
  | .decE => []
  | .decH => []
  | .decL => []
  | .decA => []
  | .rlca => []
  | .xorA => []
  | .incBC => []
  | .incDE => []
  | .incHL => []
  | .incSP => []
  | .decBC => []
  | .decDE => []
  | .decHL => []
  | .decSP => []
  | .addHLBC => []
  | .addHLDE => []
  | .addHLHL => []
  | .addHLSP => []
  | .jrNZ e8 => [e8]
  | .jrZ e8 => [e8]
  | .jrNC e8 => [e8]
  | .jrC e8 => [e8]
  | .jr e8 => [e8]

/-- The mapped bytes 0x00 to 0x0F (30_encoding.md R66, R67). -/
def opcodeRow0 : OpcodeMap :=
  [(0x00, .nop), (0x01, .ldBCd16), (0x02, .ldAtBCA), (0x03, .incBC), (0x04, .incB),
   (0x05, .decB), (0x06, .ldBd8), (0x07, .rlca), (0x08, .ldAtA16SP), (0x09, .addHLBC),
   (0x0A, .ldAAtBC), (0x0B, .decBC), (0x0C, .incC), (0x0D, .decC), (0x0E, .ldCd8)]

/-- The mapped bytes 0x10 to 0x1F (30_encoding.md R66, R67). -/
def opcodeRow1 : OpcodeMap :=
  [(0x10, .stop), (0x11, .ldDEd16), (0x12, .ldAtDEA), (0x13, .incDE), (0x14, .incD),
   (0x15, .decD), (0x16, .ldDd8), (0x18, .jr), (0x19, .addHLDE), (0x1A, .ldAAtDE),
   (0x1B, .decDE), (0x1C, .incE), (0x1D, .decE), (0x1E, .ldEd8)]

/-- The mapped bytes 0x20 to 0x2F (30_encoding.md R66, R67). -/
def opcodeRow2 : OpcodeMap :=
  [(0x20, .jrNZ), (0x21, .ldHLd16), (0x23, .incHL), (0x24, .incH), (0x25, .decH),
   (0x26, .ldHd8), (0x28, .jrZ), (0x29, .addHLHL), (0x2B, .decHL), (0x2C, .incL),
   (0x2D, .decL), (0x2E, .ldLd8)]

/-- The mapped bytes 0x30 to 0x3F (30_encoding.md R66, R67). -/
def opcodeRow3 : OpcodeMap :=
  [(0x30, .jrNC), (0x31, .ldSPd16), (0x33, .incSP), (0x38, .jrC), (0x39, .addHLSP),
   (0x3B, .decSP), (0x3C, .incA), (0x3D, .decA), (0x3E, .ldAd8)]

/-- The mapped bytes 0x70 to 0x7F (30_encoding.md R66, R67). -/
def opcodeRow7 : OpcodeMap :=
  [(0x76, .halt), (0x77, .ldAtHLA), (0x7E, .ldAAtHL)]

/-- The mapped bytes 0xA0 to 0xAF (30_encoding.md R66, R67). -/
def opcodeRowA : OpcodeMap :=
  [(0xAF, .xorA)]

/-- The default OPCODE_MAP: the 54 rows of 30_encoding.md R66. -/
def defaultOpcodeMap : OpcodeMap :=
  opcodeRow0 ++ opcodeRow1 ++ opcodeRow2 ++ opcodeRow3 ++ opcodeRow7 ++ opcodeRowA

/-- The defaults of 00_scope.md R6; the budget is 4194304 / 60 with the fraction dropped (70_reset_and_hazards.md R232). -/
def Config.default : Config :=
  { budget := 69905, unmappedAsNop := false, opcodeMap := defaultOpcodeMap, haltOpcode := some 0x76 }

/-- The part of a map a modeller keeps who stays with the source: its Tier S rows (00_scope.md R9). -/
def OpcodeMap.tierS (m : OpcodeMap) : OpcodeMap :=
  m.filter (fun row => row.2.tier == .s)

/-- The handler of the first row for `b`. -/
def lookupByte (b : Byte) : OpcodeMap → Option Op
  | [] => none
  | (k, op) :: rest => if k = b then some op else lookupByte b rest

/-- The handler a byte is mapped to: HALT for HALT_OPCODE and only for it, else what OPCODE_MAP says
(30_encoding.md R64; 40_control_misc.md R82; notes 1 and 2). -/
def Config.mappedOp (cfg : Config) (b : Byte) : Option Op :=
  if cfg.haltOpcode = some b then some .halt
  else
    match lookupByte b cfg.opcodeMap with
    | some op => if op = .halt then none else some op
    | none => none

/-- `decode(byte) -> handler`: a byte that is not mapped has no handler, or NOP under UNMAPPED_AS_NOP
(49_engine.md R182; 30_encoding.md R69). -/
def Config.decodeByte (cfg : Config) (b : Byte) : Option Op :=
  match cfg.mappedOp b with
  | some op => some op
  | none => if cfg.unmappedAsNop then some .nop else none

/-- Why a byte sequence is not an instruction. Only `unimplementedOpcode` is a condition of the hardware
(30_encoding.md R64); the machine always offers three bytes, so it never meets the others. -/
inductive DecodeError where
  | noBytes
  | unimplementedOpcode (opcode : Byte)
  | missingOperand (op : Op)
deriving DecidableEq, Repr

/-- Takes the operand bytes a handler's format asks for and returns the bytes after them. -/
def takeOperands (op : Op) (bytes : List Byte) : Except DecodeError (Instr × List Byte) :=
  match op.format, bytes with
  | .f1, rest => .ok (op.instr 0 0, rest)
  | .f2, lo :: rest => .ok (op.instr lo 0, rest)
  | .f3, lo :: hi :: rest => .ok (op.instr lo hi, rest)
  | .f2, [] => .error (.missingOperand op)
  | .f3, [] => .error (.missingOperand op)
  | .f3, [_] => .error (.missingOperand op)

/-- The decoder: the instruction at the front of a byte sequence, and the bytes after it. -/
def decode (cfg : Config) : List Byte → Except DecodeError (Instr × List Byte)
  | [] => .error .noBytes
  | opcode :: rest =>
    match cfg.decodeByte opcode with
    | none => .error (.unimplementedOpcode opcode)
    | some op => takeOperands op rest

/-- The first row whose byte is mapped to `op`. -/
def firstByteOf (cfg : Config) (op : Op) : OpcodeMap → Option Byte
  | [] => none
  | (k, _) :: rest => if cfg.mappedOp k = some op then some k else firstByteOf cfg op rest

/-- The opcode byte of a handler under a configuration, if it has one. -/
def Config.byteOf (cfg : Config) (op : Op) : Option Byte :=
  if op = .halt then cfg.haltOpcode else firstByteOf cfg op cfg.opcodeMap

/-- The encoder: opcode byte, then the operand bytes in ascending address order (30_encoding.md R60, R62). -/
def encode (cfg : Config) (i : Instr) : Option (List Byte) :=
  match cfg.byteOf i.op with
  | some b => some (b :: i.operandBytes)
  | none => none

/-- The instruction can be encoded under the configuration. -/
def Instr.wf (cfg : Config) (i : Instr) : Bool := cfg.names i.op

/-- The encoded length in bytes of a format (30_encoding.md R60). -/
def Format.length : Format → Nat
  | .f1 => 1
  | .f2 => 2
  | .f3 => 3

/-- The encoded length of an instruction (30_encoding.md R61). -/
def Instr.length (i : Instr) : Nat := i.op.format.length

/-- The displacement byte an assembler stores for a jump at `p` to `target`, where the distance is in range
(30_encoding.md R71; note 12). -/
def assembleDisplacement (p target : Word) : Option Byte :=
  let distance : Int := (target.toNat : Int) - ((p.toNat : Int) + 2)
  if -128 ≤ distance ∧ distance ≤ 127 then some (BitVec.ofInt 8 distance) else none

/-- The three bytes of an opcode-table word: bit 0 of `w` is the least significant bit of the first byte, and every bit
from `nbits` on is 0. No instruction is longer than three bytes (30_encoding.md R60). -/
def tableBytes (nbits w : Nat) : List Byte :=
  let v := w % 2 ^ nbits
  [BitVec.ofNat 8 v, BitVec.ofNat 8 (v / 256), BitVec.ofNat 8 (v / 65536)]

/-- The instruction the decoder reads from an opcode-table word, in the default configuration. -/
def decodeTableWord (nbits w : Nat) : Option Instr :=
  match decode Config.default (tableBytes nbits w) with
  | .ok (i, _) => some i
  | .error _ => none

end Sys2Proof
end

