-- ==== Sys2Proof/Machine/State.lean ====
section
/-! DEFINITION. The whole state of the hardware (10_state.md R10), how a step may stop, and reset. -/

namespace Sys2Proof.Machine

/-- Memory: (address, byte) pairs, addresses rising, no listed byte 0x00; an unlisted address reads 0x00
(10_state.md R30; note 7). -/
abbrev Memory := List Host.Cell

/-- The engine's state machine (10_state.md R25). -/
inductive RunState where
  | running
  | halted
deriving DecidableEq, Repr

/-- Everything 10_state.md R10 lists as stored. Pairs and flags are computed from the byte registers (R14, R21). -/
structure State where
  a : Byte
  f : Byte
  b : Byte
  c : Byte
  d : Byte
  e : Byte
  h : Byte
  l : Byte
  sp : Word
  pc : Word
  mem : Memory
  runState : RunState
  /-- `frame_cycles`, unbounded (10_state.md R26). -/
  frameCycles : Nat
  /-- The construction-time parameters (10_state.md R27; note 1). -/
  cfg : Config
deriving DecidableEq, Repr

/-- How a step can stop with a fault. -/
inductive Fault where
  /-- The byte fetched at `p` has no handler (60_exceptions.md R201). Raised by `step`. Safe: the spec names the fault,
  and `takeFault` gives the state it leaves. -/
  | decodeFault (opcode : Byte) (p : Word)
  /-- An address outside 0..65535 before masking (60_exceptions.md R200, R203). Raised by nobody: every address is 16
  bits wide. Safe: nothing is cut off by it. -/
  | addressRangeFault
deriving DecidableEq, Repr

/-- How a step can refuse. -/
inductive Refusal where
  /-- An instruction without a meaning. Raised by no arm of `exec`: every instruction of the table has its meaning.
  Safe: nothing is cut off by it. -/
  | notModelled (mnemonic : String)
deriving DecidableEq, Repr

/-- The three error conditions the source names (60_exceptions.md R200). -/
inductive ErrorKind where
  | decodeFault
  | addressRangeFault
  | configurationError
deriving DecidableEq, Repr

/-- A freshly created engine: registers and memory zero, Running, counter zero (10_state.md R30). -/
def State.create (cfg : Config) : State :=
  { a := 0, f := 0, b := 0, c := 0, d := 0, e := 0, h := 0, l := 0, sp := 0, pc := 0, mem := [],
    runState := .running, frameCycles := 0, cfg := cfg }

/-- The machine right after reset in the default configuration (70_reset_and_hazards.md R220; 00_scope.md R6). -/
def State.reset : State := State.create Config.default

end Sys2Proof.Machine
end

