-- ==== Sys2Proof/Machine/Ops.lean ====
section
/-! DEFINITION. Named operations over memory, registers and the engine: every meaning goes through these. -/

namespace Sys2Proof.Machine

/-- The canonical form: addresses strictly rising from `lo`, below 65536, and no listed byte 0x00. -/
def Memory.wfFrom (lo : Nat) : Memory → Bool
  | [] => true
  | (a, v) :: m => decide (lo ≤ a) && decide (a < 65536) && v != 0 && Memory.wfFrom (a + 1) m

/-- Memory in canonical form. -/
def Memory.wf (m : Memory) : Bool := Memory.wfFrom 0 m

/-- What an address that is not listed reads as: the reset contents (10_state.md R30). -/
def unlistedByte : Byte := 0

/-- The byte at an address. -/
def Memory.read (a : Nat) : Memory → Byte
  | [] => unlistedByte
  | (k, v) :: m => if k = a then v else Memory.read a m

/-- Puts a byte in front, unless it is what an unlisted address reads as. -/
def Memory.put (a : Nat) (v : Byte) (m : Memory) : Memory := if v = unlistedByte then m else (a, v) :: m

/-- Sets the byte at an address and keeps the canonical form. -/
def Memory.write (a : Nat) (v : Byte) : Memory → Memory
  | [] => Memory.put a v []
  | (k, x) :: m =>
    if a < k then Memory.put a v ((k, x) :: m)
    else if a = k then Memory.put a v m
    else (k, x) :: Memory.write a v m

/-- Sets bytes at ascending addresses. -/
def Memory.writeBytes : Nat → List Byte → Memory → Memory
  | _, [], m => m
  | a, v :: vs, m => Memory.writeBytes (a + 1) vs (Memory.write a v m)

/-- `MemRead(addr, 1)` (20_memory.md R42). -/
def State.readByte (s : State) (addr : Word) : Byte := Memory.read addr.toNat s.mem

/-- `MemRead(addr, 2)`: little-endian, the second address modulo 65,536 (00_scope.md R7; 20_memory.md R44, R45). -/
def State.readWord (s : State) (addr : Word) : Word := wordOf (s.readByte (addr + 1)) (s.readByte addr)

/-- `MemWrite(addr, 1, v)` (20_memory.md R42). -/
def State.writeByte (s : State) (addr : Word) (v : Byte) : State :=
  { s with mem := Memory.write addr.toNat v s.mem }

/-- `MemWrite(addr, 2, v)`: low byte at `addr`, then high byte at the next address modulo 65,536
(00_scope.md R7; 20_memory.md R44, R45, R48). -/
def State.writeWord (s : State) (addr : Word) (v : Word) : State :=
  (s.writeByte addr (loByte v)).writeByte (addr + 1) (hiByte v)

/-- A byte register's value (10_state.md R11). -/
def State.r8 (s : State) : Reg8 → Byte
  | .a => s.a
  | .f => s.f
  | .b => s.b
  | .c => s.c
  | .d => s.d
  | .e => s.e
  | .h => s.h
  | .l => s.l

/-- Sets a byte register and nothing else (10_state.md R12). -/
def State.setR8 (s : State) (r : Reg8) (v : Byte) : State :=
  match r with
  | .a => { s with a := v }
  | .f => { s with f := v }
  | .b => { s with b := v }
  | .c => { s with c := v }
  | .d => { s with d := v }
  | .e => { s with e := v }
  | .h => { s with h := v }
  | .l => { s with l := v }

/-- A pair's value, high byte first, or SP (10_state.md R14, R17). -/
def State.r16 (s : State) : Reg16 → Word
  | .bc => wordOf s.b s.c
  | .de => wordOf s.d s.e
  | .hl => wordOf s.h s.l
  | .sp => s.sp

/-- Sets both halves of a pair, or SP (10_state.md R15, R17). -/
def State.setR16 (s : State) (r : Reg16) (v : Word) : State :=
  match r with
  | .bc => { s with b := hiByte v, c := loByte v }
  | .de => { s with d := hiByte v, e := loByte v }
  | .hl => { s with h := hiByte v, l := loByte v }
  | .sp => { s with sp := v }

/-- The end of a handler that is no jump: PC moves past the instruction's `len` bytes (10_state.md R19), and the engine
adds the cost the handler yields to the frame's total (49_engine.md R183; note 5). -/
def State.retire (s : State) (len cost : Nat) : State :=
  { s with pc := s.pc + BitVec.ofNat 16 len, frameCycles := s.frameCycles + cost }

/-- The end of a taken jump: PC is the target, and the cost is added. -/
def State.jumpTo (s : State) (target : Word) (cost : Nat) : State :=
  { s with pc := target, frameCycles := s.frameCycles + cost }

/-- Enters Halted and changes nothing else (10_state.md R25). -/
def State.halt (s : State) : State := { s with runState := .halted }

/-- Taking a fault: the engine is Halted, nothing else changes, PC still points at the offending byte; there is no
vector, no saved register and no way back but reset (60_exceptions.md R201, R209, R210). -/
def State.takeFault (s : State) : State := s.halt

/-- The error condition a fault is (60_exceptions.md R200). -/
def Fault.kind : Fault → ErrorKind
  | .decodeFault _ _ => .decodeFault
  | .addressRangeFault => .addressRangeFault

/-- The code numbers of 60_exceptions.md R200. -/
def ErrorKind.code : ErrorKind → Nat
  | .decodeFault => 1
  | .addressRangeFault => 2
  | .configurationError => 3

end Sys2Proof.Machine
end

