-- ==== Sys2Proof/Machine/Flags.lean ====
section
/-! DEFINITION. The flags view of F and every flag computation of the spec. -/

namespace Sys2Proof.Machine

/-- The place of a flag in F (10_state.md R21). -/
def flagBit : Flag → Nat
  | .z => 7
  | .n => 6
  | .h => 5
  | .c => 4

/-- Reads a flag of F (10_state.md R22). -/
def getFlag (f : Byte) (k : Flag) : Bool := f.getLsbD (flagBit k)

/-- Sets a flag of F: clear its bit, then put `b` there; the other seven bits stay (10_state.md R22). -/
def putFlag (f : Byte) (k : Flag) (b : Bool) : Byte :=
  (f &&& (0xFF#8 ^^^ (1#8 <<< flagBit k))) ||| ((if b then 1#8 else 0#8) <<< flagBit k)

/-- The value of a flag. -/
def State.flag (s : State) (k : Flag) : Bool := getFlag s.f k

/-- Sets one flag. -/
def State.setFlag (s : State) (k : Flag) (b : Bool) : State := { s with f := putFlag s.f k b }

/-- Half-carry of an increment: carry out of bit 3 (42_alu8.md R136). -/
def incHalf (old : Byte) : Bool := old &&& 0x0F#8 == 0x0F#8

/-- Half-borrow of a decrement (42_alu8.md R137). -/
def decHalf (old : Byte) : Bool := old &&& 0x0F#8 == 0x00#8

/-- Carry out of bit 11 of a 16-bit sum (43_alu16.md R163). -/
def addHalf16 (a b : Word) : Bool := decide ((a &&& 0x0FFF#16).toNat + (b &&& 0x0FFF#16).toNat > 0x0FFF)

/-- Carry out of bit 15 of a 16-bit sum (43_alu16.md R163). -/
def addCarry16 (a b : Word) : Bool := decide (a.toNat + b.toNat > 0xFFFF)

/-- F after INC of a byte register that held `old`: Z, N, H written (42_alu8.md R120). -/
def incFlags (f old : Byte) : Byte :=
  putFlag (putFlag (putFlag f .z (old + 1 == 0)) .n false) .h (incHalf old)

/-- F after DEC of a byte register that held `old`: Z, N, H written (42_alu8.md R127). -/
def decFlags (f old : Byte) : Byte :=
  putFlag (putFlag (putFlag f .z (old - 1 == 0)) .n true) .h (decHalf old)

/-- F after ADD HL with operands `a`, `b`: H, C written (43_alu16.md R158, R162). -/
def addFlags16 (f : Byte) (a b : Word) : Byte :=
  putFlag (putFlag f .h (addHalf16 a b)) .c (addCarry16 a b)

/-- F after RLCA of an accumulator whose bit 7 was `c`: all four written (42_alu8.md R134). -/
def rlcaFlags (f : Byte) (c : Bool) : Byte :=
  putFlag (putFlag (putFlag (putFlag f .c c) .z false) .n false) .h false

/-- F after XOR A: all four written, to 1, 0, 0, 0 (42_alu8.md R135). -/
def xorFlags (f : Byte) : Byte :=
  putFlag (putFlag (putFlag (putFlag f .z true) .n false) .h false) .c false

end Sys2Proof.Machine
end

