-- ==== Sys2Proof/Machine/Operands.lean ====
section
/-! DEFINITION. Operand forms: register indirect, absolute, the jump displacement and the jump conditions
(41_load_store.md; 44_branch.md). Immediates are fields of `Instr`; register operands are read by `State.r8`, `State.r16`. -/

namespace Sys2Proof.Machine

/-- The byte at the address in a pair (41_load_store.md R104). -/
def State.loadIndirect (s : State) (r : Reg16) : Byte := s.readByte (s.r16 r)

/-- Stores a byte at the address in a pair (41_load_store.md R101). -/
def State.storeIndirect (s : State) (r : Reg16) (v : Byte) : State := s.writeByte (s.r16 r) v

/-- Stores a word at an absolute address (41_load_store.md R107). -/
def State.storeAbsolute (s : State) (a16 v : Word) : State := s.writeWord a16 v

/-- The signed displacement as a word (44_branch.md R175). -/
def displacement (e8 : Byte) : Word := e8.signExtend 16

/-- The target of a relative jump at `p`: from the address after the two-byte instruction (44_branch.md R175). -/
def jumpTarget (p : Word) (e8 : Byte) : Word := p + 2 + displacement e8

/-- Whether a condition holds for the flags in F (44_branch.md R176). -/
def condHolds (f : Byte) : Cond → Bool
  | .nz => !getFlag f .z
  | .z => getFlag f .z
  | .nc => !getFlag f .c
  | .c => getFlag f .c

end Sys2Proof.Machine
end

