-- ==== Sys2Proof/Machine/Alu16.lean ====
section
/-! DEFINITION. 16-bit arithmetic (43_alu16.md R150 to R165). -/

namespace Sys2Proof.Machine

/-- INC rr: modulo 65,536, no flag. -/
def State.incR16 (s : State) (r : Reg16) : State := (s.setR16 r (s.r16 r + 1)).retire 1 8

/-- DEC rr: modulo 65,536, no flag. -/
def State.decR16 (s : State) (r : Reg16) : State := (s.setR16 r (s.r16 r - 1)).retire 1 8

/-- ADD HL,rr: modulo 65,536; H and C written, Z and N kept (R162); both operands are read first (R160). -/
def State.addHL (s : State) (r : Reg16) : State :=
  let x := s.r16 .hl
  let y := s.r16 r
  (({ s with f := addFlags16 s.f x y }).setR16 .hl (x + y)).retire 1 8

/-- INC BC (R150). -/
def execIncBC (s : State) : Host.Outcome State Fault Refusal := .next (s.incR16 .bc)

/-- INC DE (R151). -/
def execIncDE (s : State) : Host.Outcome State Fault Refusal := .next (s.incR16 .de)

/-- INC HL (R152). -/
def execIncHL (s : State) : Host.Outcome State Fault Refusal := .next (s.incR16 .hl)

/-- INC SP (R153). -/
def execIncSP (s : State) : Host.Outcome State Fault Refusal := .next (s.incR16 .sp)

/-- DEC BC (R154). -/
def execDecBC (s : State) : Host.Outcome State Fault Refusal := .next (s.decR16 .bc)

/-- DEC DE (R155). -/
def execDecDE (s : State) : Host.Outcome State Fault Refusal := .next (s.decR16 .de)

/-- DEC HL (R156). -/
def execDecHL (s : State) : Host.Outcome State Fault Refusal := .next (s.decR16 .hl)

/-- DEC SP (R157). -/
def execDecSP (s : State) : Host.Outcome State Fault Refusal := .next (s.decR16 .sp)

/-- ADD HL,BC (R158). -/
def execAddHLBC (s : State) : Host.Outcome State Fault Refusal := .next (s.addHL .bc)

/-- ADD HL,DE (R159). -/
def execAddHLDE (s : State) : Host.Outcome State Fault Refusal := .next (s.addHL .de)

/-- ADD HL,HL (R160). -/
def execAddHLHL (s : State) : Host.Outcome State Fault Refusal := .next (s.addHL .hl)

/-- ADD HL,SP (R161). -/
def execAddHLSP (s : State) : Host.Outcome State Fault Refusal := .next (s.addHL .sp)

end Sys2Proof.Machine
end

