-- ==== Sys2Proof/Machine/Alu8.lean ====
section
/-! DEFINITION. 8-bit arithmetic and logic (42_alu8.md R120 to R139). -/

namespace Sys2Proof.Machine

/-- INC r: modulo 256, flags from the old value; both are computed before anything is written (R138). -/
def State.incR8 (s : State) (r : Reg8) : State :=
  let old := s.r8 r
  (({ s with f := incFlags s.f old }).setR8 r (old + 1)).retire 1 4

/-- DEC r: modulo 256, flags from the old value; both are computed before anything is written (R138). -/
def State.decR8 (s : State) (r : Reg8) : State :=
  let old := s.r8 r
  (({ s with f := decFlags s.f old }).setR8 r (old - 1)).retire 1 4

/-- RLCA: the old bit 7 goes to C and to bit 0; the old C is not used. -/
def State.rotateLeftA (s : State) : State :=
  let c := s.a.getLsbD 7
  ({ s with a := (s.a <<< 1) ||| (if c then 1#8 else 0#8), f := rlcaFlags s.f c }).retire 1 4

/-- XOR A: the accumulator is cleared whatever it held. -/
def State.clearA (s : State) : State := ({ s with a := 0, f := xorFlags s.f }).retire 1 4

/-- INC B (R120). -/
def execIncB (s : State) : Host.Outcome State Fault Refusal := .next (s.incR8 .b)

/-- INC C (R121). -/
def execIncC (s : State) : Host.Outcome State Fault Refusal := .next (s.incR8 .c)

/-- INC D (R122). -/
def execIncD (s : State) : Host.Outcome State Fault Refusal := .next (s.incR8 .d)

/-- INC E (R123). -/
def execIncE (s : State) : Host.Outcome State Fault Refusal := .next (s.incR8 .e)

/-- INC H (R124). -/
def execIncH (s : State) : Host.Outcome State Fault Refusal := .next (s.incR8 .h)

/-- INC L (R125). -/
def execIncL (s : State) : Host.Outcome State Fault Refusal := .next (s.incR8 .l)

/-- INC A (R126). -/
def execIncA (s : State) : Host.Outcome State Fault Refusal := .next (s.incR8 .a)

/-- DEC B (R127). -/
def execDecB (s : State) : Host.Outcome State Fault Refusal := .next (s.decR8 .b)

/-- DEC C (R128). -/
def execDecC (s : State) : Host.Outcome State Fault Refusal := .next (s.decR8 .c)

/-- DEC D (R129). -/
def execDecD (s : State) : Host.Outcome State Fault Refusal := .next (s.decR8 .d)

/-- DEC E (R130). -/
def execDecE (s : State) : Host.Outcome State Fault Refusal := .next (s.decR8 .e)

/-- DEC H (R131). -/
def execDecH (s : State) : Host.Outcome State Fault Refusal := .next (s.decR8 .h)

/-- DEC L (R132). -/
def execDecL (s : State) : Host.Outcome State Fault Refusal := .next (s.decR8 .l)

/-- DEC A (R133). -/
def execDecA (s : State) : Host.Outcome State Fault Refusal := .next (s.decR8 .a)

/-- RLCA (R134). -/
def execRlca (s : State) : Host.Outcome State Fault Refusal := .next (s.rotateLeftA)

/-- XOR A (R135). -/
def execXorA (s : State) : Host.Outcome State Fault Refusal := .next (s.clearA)

end Sys2Proof.Machine
end

