-- ==== Sys2Proof/Machine/Branch.lean ====
section
/-! DEFINITION. Relative jumps (44_branch.md R170 to R179). -/

namespace Sys2Proof.Machine

/-- JR cc: 12 cycles and the target when the condition holds, else 8 cycles and the next instruction. -/
def State.jumpIf (s : State) (cc : Cond) (e8 : Byte) : State :=
  if condHolds s.f cc then s.jumpTo (jumpTarget s.pc e8) 12 else s.retire 2 8

/-- JR: always taken. -/
def State.jumpAlways (s : State) (e8 : Byte) : State := s.jumpTo (jumpTarget s.pc e8) 12

/-- JR NZ,e8 (R170). -/
def execJrNZ (e8 : Byte) (s : State) : Host.Outcome State Fault Refusal := .next (s.jumpIf .nz e8)

/-- JR Z,e8 (R171). -/
def execJrZ (e8 : Byte) (s : State) : Host.Outcome State Fault Refusal := .next (s.jumpIf .z e8)

/-- JR NC,e8 (R172). -/
def execJrNC (e8 : Byte) (s : State) : Host.Outcome State Fault Refusal := .next (s.jumpIf .nc e8)

/-- JR C,e8 (R173). -/
def execJrC (e8 : Byte) (s : State) : Host.Outcome State Fault Refusal := .next (s.jumpIf .c e8)

/-- JR e8 (R174). -/
def execJr (e8 : Byte) (s : State) : Host.Outcome State Fault Refusal := .next (s.jumpAlways e8)

end Sys2Proof.Machine
end

