-- ==== Sys2Proof/Machine/Control.lean ====
section
/-! DEFINITION. NOP, STOP, HALT (40_control_misc.md R80 to R82). -/

namespace Sys2Proof.Machine

/-- NOP (R80). -/
def execNop (s : State) : Host.Outcome State Fault Refusal := .next (s.retire 1 4)

/-- STOP: a placeholder that skips its second byte and stops nothing (R81). -/
def execStop (s : State) : Host.Outcome State Fault Refusal := .next (s.retire 2 4)

/-- HALT: the engine enters Halted; the instruction itself completes (R82). -/
def execHalt (s : State) : Host.Outcome State Fault Refusal := .next (s.halt.retire 1 4)

end Sys2Proof.Machine
end

