-- ==== Sys2Proof/Machine/LoadStore.lean ====
section
/-! DEFINITION. Load and store instructions (41_load_store.md R90 to R107). None of them writes a flag. -/

namespace Sys2Proof.Machine

/-- LD rr,d16: the immediate into a pair or SP. -/
def State.loadImm16 (s : State) (r : Reg16) (d16 : Word) : State := (s.setR16 r d16).retire 3 12

/-- LD r,d8: the immediate into a byte register. -/
def State.loadImm8 (s : State) (r : Reg8) (d8 : Byte) : State := (s.setR8 r d8).retire 2 8

/-- LD (rr),A: the accumulator to the byte a pair points at; the pair is not modified. -/
def State.storeA (s : State) (r : Reg16) : State := (s.storeIndirect r s.a).retire 1 8

/-- LD A,(rr): the byte a pair points at into the accumulator; the pair is not modified. -/
def State.loadA (s : State) (r : Reg16) : State := (s.setR8 .a (s.loadIndirect r)).retire 1 8

/-- LD (a16),SP: SP to memory, low byte at the lower address. -/
def State.storeSP (s : State) (a16 : Word) : State := (s.storeAbsolute a16 s.sp).retire 3 20

/-- LD BC,d16 (R90). -/
def execLdBCd16 (d16 : Word) (s : State) : Host.Outcome State Fault Refusal := .next (s.loadImm16 .bc d16)

/-- LD DE,d16 (R91). -/
def execLdDEd16 (d16 : Word) (s : State) : Host.Outcome State Fault Refusal := .next (s.loadImm16 .de d16)

/-- LD HL,d16 (R92). -/
def execLdHLd16 (d16 : Word) (s : State) : Host.Outcome State Fault Refusal := .next (s.loadImm16 .hl d16)

/-- LD SP,d16 (R93). -/
def execLdSPd16 (d16 : Word) (s : State) : Host.Outcome State Fault Refusal := .next (s.loadImm16 .sp d16)

/-- LD B,d8 (R94). -/
def execLdBd8 (d8 : Byte) (s : State) : Host.Outcome State Fault Refusal := .next (s.loadImm8 .b d8)

/-- LD C,d8 (R95). -/
def execLdCd8 (d8 : Byte) (s : State) : Host.Outcome State Fault Refusal := .next (s.loadImm8 .c d8)

/-- LD D,d8 (R96). -/
def execLdDd8 (d8 : Byte) (s : State) : Host.Outcome State Fault Refusal := .next (s.loadImm8 .d d8)

/-- LD E,d8 (R97). -/
def execLdEd8 (d8 : Byte) (s : State) : Host.Outcome State Fault Refusal := .next (s.loadImm8 .e d8)

/-- LD H,d8 (R98). -/
def execLdHd8 (d8 : Byte) (s : State) : Host.Outcome State Fault Refusal := .next (s.loadImm8 .h d8)

/-- LD L,d8 (R99). -/
def execLdLd8 (d8 : Byte) (s : State) : Host.Outcome State Fault Refusal := .next (s.loadImm8 .l d8)

/-- LD A,d8 (R100). -/
def execLdAd8 (d8 : Byte) (s : State) : Host.Outcome State Fault Refusal := .next (s.loadImm8 .a d8)

/-- LD (BC),A (R101). -/
def execLdAtBCA (s : State) : Host.Outcome State Fault Refusal := .next (s.storeA .bc)

/-- LD (DE),A (R102). -/
def execLdAtDEA (s : State) : Host.Outcome State Fault Refusal := .next (s.storeA .de)

/-- LD (HL),A (R103). -/
def execLdAtHLA (s : State) : Host.Outcome State Fault Refusal := .next (s.storeA .hl)

/-- LD A,(BC) (R104). -/
def execLdAAtBC (s : State) : Host.Outcome State Fault Refusal := .next (s.loadA .bc)

/-- LD A,(DE) (R105). -/
def execLdAAtDE (s : State) : Host.Outcome State Fault Refusal := .next (s.loadA .de)

/-- LD A,(HL) (R106). -/
def execLdAAtHL (s : State) : Host.Outcome State Fault Refusal := .next (s.loadA .hl)

/-- LD (a16),SP (R107). -/
def execLdAtA16SP (a16 : Word) (s : State) : Host.Outcome State Fault Refusal := .next (s.storeSP a16)

end Sys2Proof.Machine
end

