-- ==== Sys2Proof/Machine/Dispatch.lean ====
section
/-! DEFINITION. One arm per constructor of `Instr`: the meaning each instruction runs (49_engine.md R183). -/

namespace Sys2Proof.Machine

def exec (i : Instr) (s : State) : Host.Outcome State Fault Refusal :=
  match i with
  | .nop => Sys2Proof.Machine.execNop s
  | .stop _ => Sys2Proof.Machine.execStop s
  | .halt => Sys2Proof.Machine.execHalt s
  | .ldBCd16 d16 => Sys2Proof.Machine.execLdBCd16 d16 s
  | .ldDEd16 d16 => Sys2Proof.Machine.execLdDEd16 d16 s
  | .ldHLd16 d16 => Sys2Proof.Machine.execLdHLd16 d16 s
  | .ldSPd16 d16 => Sys2Proof.Machine.execLdSPd16 d16 s
  | .ldBd8 d8 => Sys2Proof.Machine.execLdBd8 d8 s
  | .ldCd8 d8 => Sys2Proof.Machine.execLdCd8 d8 s
  | .ldDd8 d8 => Sys2Proof.Machine.execLdDd8 d8 s
  | .ldEd8 d8 => Sys2Proof.Machine.execLdEd8 d8 s
  | .ldHd8 d8 => Sys2Proof.Machine.execLdHd8 d8 s
  | .ldLd8 d8 => Sys2Proof.Machine.execLdLd8 d8 s
  | .ldAd8 d8 => Sys2Proof.Machine.execLdAd8 d8 s
  | .ldAtBCA => Sys2Proof.Machine.execLdAtBCA s
  | .ldAtDEA => Sys2Proof.Machine.execLdAtDEA s
  | .ldAtHLA => Sys2Proof.Machine.execLdAtHLA s
  | .ldAAtBC => Sys2Proof.Machine.execLdAAtBC s
  | .ldAAtDE => Sys2Proof.Machine.execLdAAtDE s
  | .ldAAtHL => Sys2Proof.Machine.execLdAAtHL s
  | .ldAtA16SP a16 => Sys2Proof.Machine.execLdAtA16SP a16 s
  | .incB => Sys2Proof.Machine.execIncB s
  | .incC => Sys2Proof.Machine.execIncC s
  | .incD => Sys2Proof.Machine.execIncD s
  | .incE => Sys2Proof.Machine.execIncE s
  | .incH => Sys2Proof.Machine.execIncH s
  | .incL => Sys2Proof.Machine.execIncL s
  | .incA => Sys2Proof.Machine.execIncA s
  | .decB => Sys2Proof.Machine.execDecB s
  | .decC => Sys2Proof.Machine.execDecC s
  | .decD => Sys2Proof.Machine.execDecD s
  | .decE => Sys2Proof.Machine.execDecE s
  | .decH => Sys2Proof.Machine.execDecH s
  | .decL => Sys2Proof.Machine.execDecL s
  | .decA => Sys2Proof.Machine.execDecA s
  | .rlca => Sys2Proof.Machine.execRlca s
  | .xorA => Sys2Proof.Machine.execXorA s
  | .incBC => Sys2Proof.Machine.execIncBC s
  | .incDE => Sys2Proof.Machine.execIncDE s
  | .incHL => Sys2Proof.Machine.execIncHL s
  | .incSP => Sys2Proof.Machine.execIncSP s
  | .decBC => Sys2Proof.Machine.execDecBC s
  | .decDE => Sys2Proof.Machine.execDecDE s
  | .decHL => Sys2Proof.Machine.execDecHL s
  | .decSP => Sys2Proof.Machine.execDecSP s
  | .addHLBC => Sys2Proof.Machine.execAddHLBC s
  | .addHLDE => Sys2Proof.Machine.execAddHLDE s
  | .addHLHL => Sys2Proof.Machine.execAddHLHL s
  | .addHLSP => Sys2Proof.Machine.execAddHLSP s
  | .jrNZ e8 => Sys2Proof.Machine.execJrNZ e8 s
  | .jrZ e8 => Sys2Proof.Machine.execJrZ e8 s
  | .jrNC e8 => Sys2Proof.Machine.execJrNC e8 s
  | .jrC e8 => Sys2Proof.Machine.execJrC e8 s
  | .jr e8 => Sys2Proof.Machine.execJr e8 s

end Sys2Proof.Machine
end

