-- ==== Sys2Proof/Machine/Fetch.lean ====
section
/-! DEFINITION. What a step reads before it runs an instruction (49_engine.md R181, R182). -/

namespace Sys2Proof.Machine

/-- The opcode byte: the byte at PC, which the fetch does not move (49_engine.md R181). -/
def State.opcode (s : State) : Byte := s.readByte s.pc

/-- The bytes an instruction at PC can have, addresses modulo 65,536 (30_encoding.md R60; 20_memory.md R45; note 6). -/
def State.fetchBytes (s : State) : List Byte := [s.opcode, s.readByte (s.pc + 1), s.readByte (s.pc + 2)]

/-- The instruction at PC, or none where its opcode byte has no handler. -/
def State.fetch (s : State) : Option Instr :=
  match decode s.cfg s.fetchBytes with
  | .ok (i, _) => some i
  | .error _ => none

/-- Stores an opcode-table word where the next step fetches. -/
def State.placeBytes (s : State) : Word → List Byte → State
  | _, [] => s
  | a, v :: vs => State.placeBytes (s.writeByte a v) (a + 1) vs

end Sys2Proof.Machine
end

