-- ==== Sys2Proof/Machine/Step.lean ====
section
/-! DEFINITION. One step of the engine (49_engine.md R184). -/

namespace Sys2Proof.Machine

/-- Fetch, decode, execute. An opcode byte with no handler raises DecodeFault with the byte and its address
(60_exceptions.md R201); the state that leaves is `s.takeFault` (note 4). In Halted no instruction runs and nothing
changes (10_state.md R25; 49_engine.md R189; note 3). -/
def step (s : State) : Host.Outcome State Fault Refusal :=
  match s.runState with
  | .halted => .next s
  | .running =>
    match s.fetch with
    | some i => exec i s
    | none => .fault (.decodeFault s.opcode s.pc)

/-- `s`, Running, with an opcode-table word stored at PC, where the next step fetches (note 9). -/
def State.withFetchWord (s : State) (nbits w : Nat) : State :=
  { s.placeBytes s.pc (tableBytes nbits w) with runState := .running }

end Sys2Proof.Machine
end

