-- ==== Sys2Proof/Machine/Engine.lean ====
section
/-! DEFINITION. One frame (49_engine.md R185 to R189). -/

namespace Sys2Proof.Machine

/-- `n` single steps, with no frame boundary taken (60_exceptions.md R215), up to the first fault. -/
def runSteps : Nat → State → Host.Outcome State Fault Refusal
  | 0, s => .next s
  | n + 1, s =>
    match step s with
    | .next t => runSteps n t
    | .fault r => .fault r
    | .refused r => .refused r

/-- What `run_frame` returns (49_engine.md R188). -/
inductive FrameOutcome where
  /-- The budget was met and refresh was invoked. -/
  | frameComplete
  /-- A step faulted; the only fault there is is DecodeFault with the byte and its address. -/
  | fault (r : Fault)
  /-- HALT ran, or the engine was Halted on entry. -/
  | halted
  /-- A step refused; no instruction does. -/
  | refused (r : Refusal)
deriving DecidableEq, Repr

/-- The outcome of a frame, the state after it, and what an observer can count (49_engine.md R191; note 8). -/
structure FrameResult where
  outcome : FrameOutcome
  state : State
  /-- Steps completed in the frame. -/
  steps : Nat
  /-- `frame_cycles` when the frame ended, before it is zeroed. -/
  total : Nat
  /-- Frame-complete events raised. -/
  refreshes : Nat
deriving DecidableEq, Repr

/-- The frame's end: refresh, which changes no core state (49_engine.md R191), then the counter is zeroed and the
overshoot discarded (R186). -/
def frameEnd (s : State) (steps : Nat) : FrameResult :=
  { outcome := .frameComplete, state := { s with frameCycles := 0 }, steps := steps, total := s.frameCycles,
    refreshes := 1 }

/-- A frame that stops short: no refresh, the counter keeps its value (49_engine.md R187). -/
def frameStop (o : FrameOutcome) (s : State) (steps : Nat) : FrameResult :=
  { outcome := o, state := s, steps := steps, total := s.frameCycles, refreshes := 0 }

/-- The loop of 49_engine.md R185, with at most `fuel` more steps. Every step costs at least 4 cycles, so a fuel of
BUDGET is never used up while the counter is below BUDGET (note 8). -/
def frameLoop : Nat → State → Nat → FrameResult
  | 0, s, steps => frameEnd s steps
  | fuel + 1, s, steps =>
    if s.frameCycles < s.cfg.budget then
      match step s with
      | .next t => if t.runState = .halted then frameStop .halted t (steps + 1) else frameLoop fuel t (steps + 1)
      | .fault r => frameStop (.fault r) s.takeFault steps
      | .refused r => frameStop (.refused r) s steps
    else frameEnd s steps

/-- `run_frame()` (49_engine.md R185, R189). -/
def runFrame (s : State) : FrameResult :=
  if s.runState = .halted then frameStop .halted s 0 else frameLoop s.cfg.budget s 0

end Sys2Proof.Machine
end

