-- ==== Sys2Proof/Machine/HostOps.lean ====
section
/-! DEFINITION. What the host can do to the engine between frames (49_engine.md R192, R193; 10_state.md R31).
Reads are `State.r8`, `State.r16`, `State.pc`, `State.flag` and `State.readByte`; they change nothing. -/

namespace Sys2Proof.Machine

/-- Construction: the configuration is checked, then the reset state is created; a budget below 1 is refused with
ConfigurationError and there is no engine (49_engine.md R194; 60_exceptions.md R204). -/
def construct (budget : Int) (unmappedAsNop : Bool) (map : OpcodeMap) (haltOpcode : Option Byte) :
    Except ErrorKind State :=
  if budget < 1 then .error .configurationError
  else .ok (State.create { budget := budget.toNat, unmappedAsNop := unmappedAsNop, opcodeMap := map,
                           haltOpcode := haltOpcode })

/-- Why the loader refuses an image. -/
inductive LoadError where
  | imageTooLong
deriving DecidableEq, Repr

/-- The loader: the image to addresses 0, 1, ...; one longer than memory is refused and nothing is written
(70_reset_and_hazards.md R222). -/
def State.load (s : State) (image : List Byte) : Except LoadError State :=
  if image.length ≤ 65536 then .ok { s with mem := Memory.writeBytes 0 image s.mem } else .error .imageTooLong

/-- External reset: the engine is created again with the same configuration (70_reset_and_hazards.md R220). -/
def State.externalReset (s : State) : State := State.create s.cfg

/-- Writes any integer to a byte register, modulo 256 (10_state.md R11). -/
def State.hostWriteR8 (s : State) (r : Reg8) (v : Int) : State := s.setR8 r (BitVec.ofInt 8 v)

/-- Writes any integer to a pair or SP, modulo 65,536 (10_state.md R13, R15). -/
def State.hostWriteR16 (s : State) (r : Reg16) (v : Int) : State := s.setR16 r (BitVec.ofInt 16 v)

/-- Writes any integer to PC, modulo 65,536 (10_state.md R13). -/
def State.hostWritePC (s : State) (v : Int) : State := { s with pc := BitVec.ofInt 16 v }

/-- Writes a flag; any non-zero integer counts as 1 (10_state.md R22). -/
def State.hostWriteFlag (s : State) (k : Flag) (v : Int) : State := s.setFlag k (v != 0)

/-- Writes any integer to a byte of memory, modulo 256 (20_memory.md R42). -/
def State.hostWriteByte (s : State) (addr : Word) (v : Int) : State := s.writeByte addr (BitVec.ofInt 8 v)

/-- The state a host's single step leaves (49_engine.md R184, R192; 60_exceptions.md R215): after a fault, which `step`
itself reports, the engine is Halted. A single step ends no frame (note 15). -/
def State.hostStep (s : State) : State :=
  match Machine.step s with
  | .next t => t
  | .fault _ => s.takeFault
  | .refused _ => s

/-- The operations of 49_engine.md R192 that change an engine, single steps among them. -/
inductive HostAction where
  | load (image : List Byte)
  | runFrame
  | step
  | writeR8 (r : Reg8) (v : Int)
  | writeR16 (r : Reg16) (v : Int)
  | writePC (v : Int)
  | writeFlag (k : Flag) (v : Int)
  | writeByte (addr : Word) (v : Int)
  | reset
deriving DecidableEq, Repr

/-- The state after a host action; a refused load leaves it as it was. -/
def State.apply (s : State) : HostAction → State
  | .load image => match s.load image with
    | .ok t => t
    | .error _ => s
  | .runFrame => (Machine.runFrame s).state
  | .step => s.hostStep
  | .writeR8 r v => s.hostWriteR8 r v
  | .writeR16 r v => s.hostWriteR16 r v
  | .writePC v => s.hostWritePC v
  | .writeFlag k v => s.hostWriteFlag k v
  | .writeByte addr v => s.hostWriteByte addr v
  | .reset => s.externalReset

/-- The state after a run: host actions one after another (49_engine.md R195). -/
def State.applyAll (s : State) : List HostAction → State
  | [] => s
  | act :: acts => State.applyAll (s.apply act) acts

end Sys2Proof.Machine
end

