-- ==== Sys2Proof/Safety.lean ====
section
/-! DEFINITION. What counts as a sound state and a safe run, in the terms the claims use. -/

namespace Sys2Proof.Machine

/-- The invariant of every engine there is: memory in canonical form (note 7) and a budget of at least 1
(60_exceptions.md R204). -/
def State.Inv (s : State) : Prop := s.mem.wf = true ∧ 1 ≤ s.cfg.budget

/-- The counter is within what the spec allows between two steps of a frame (10_state.md R26). -/
def State.CounterBounded (s : State) : Prop := s.frameCycles ≤ s.cfg.budget - 1 + 20

/-- `n` steps of the engine, with no frame boundary taken, lead from `s` to `t`. -/
def Steps (n : Nat) (s t : State) : Prop := runSteps n s = .next t

/-- `n` steps meet no fault. -/
def SafeRun (n : Nat) (s : State) : Prop := ∃ t, Steps n s t

end Sys2Proof.Machine
end

