-- ==== Sys2Proof/Certificates/Slice0/Obligations.lean ====
section
/-! DEFINITION. The statements for the provers. Each follows the rule of spec/ its docstring names. Values are stated
over natural numbers and integers as the rules write them, not through the model's own computations. -/

open Sys2Proof Sys2Proof.Machine

namespace Sys2Proof.Claims

/-! ## Frames -/

/-- Every byte register but the listed ones keeps its value. -/
def KeepsR8But (changed : List Reg8) (s t : State) : Prop := ∀ q, q ∉ changed → t.r8 q = s.r8 q

/-- Every byte of memory reads as before, but at the listed addresses. -/
def KeepsMemBut (stored : List Word) (s t : State) : Prop := ∀ addr, addr ∉ stored → t.readByte addr = s.readByte addr

/-- The run state and the configuration stay. -/
def KeepsEngine (s t : State) : Prop := t.runState = s.runState ∧ t.cfg = s.cfg

/-- Everything but the registers A to L and SP stays. -/
def KeepsAllButData (s t : State) : Prop :=
  t.pc = s.pc ∧ t.mem = s.mem ∧ t.frameCycles = s.frameCycles ∧ KeepsEngine s t

/-- PC is `len` bytes on, modulo 65,536, and `cost` cycles are added. -/
def Retires (len cost : Nat) (s t : State) : Prop :=
  t.pc.toNat = (s.pc.toNat + len) % 65536 ∧ t.frameCycles = s.frameCycles + cost

/-- Bits 3 to 0 of F stay. -/
def KeepsLowF (s t : State) : Prop := ∀ n, n < 4 → t.f.getLsbD n = s.f.getLsbD n

/-- The four flags: bits 7, 6, 5, 4 of F (10_state.md R21). -/
def FlagsAre (t : State) (z n h c : Bool) : Prop :=
  t.f.getLsbD 7 = z ∧ t.f.getLsbD 6 = n ∧ t.f.getLsbD 5 = h ∧ t.f.getLsbD 4 = c

/-- The byte registers of a pair; SP has none. -/
def halves : Reg16 → List Reg8
  | .bc => [.b, .c]
  | .de => [.d, .e]
  | .hl => [.h, .l]
  | .sp => []

/-- A pair's 16-bit value, `high * 256 + low`, or SP's (10_state.md R14). -/
def value16 (s : State) : Reg16 → Nat
  | .bc => s.b.toNat * 256 + s.c.toNat
  | .de => s.d.toNat * 256 + s.e.toNat
  | .hl => s.h.toNat * 256 + s.l.toNat
  | .sp => s.sp.toNat

/-- The two byte registers of a pair hold the two bytes of `v`, or SP holds `v` (10_state.md R15). -/
def Holds16 (t : State) (v : Nat) : Reg16 → Prop
  | .bc => t.b.toNat = v / 256 ∧ t.c.toNat = v % 256
  | .de => t.d.toNat = v / 256 ∧ t.e.toNat = v % 256
  | .hl => t.h.toNat = v / 256 ∧ t.l.toNat = v % 256
  | .sp => t.sp.toNat = v

/-- SP keeps its value unless it is the destination. -/
def KeepsSPUnless (r : Reg16) (s t : State) : Prop := r ≠ .sp → t.sp = s.sp

/-- `signed(d)` (00_scope.md R7). -/
def signed (d : Byte) : Int := if d.toNat < 128 then (d.toNat : Int) else (d.toNat : Int) - 256

/-! ## Which instruction a step runs -/

/-- OPCODE_MAP and HALT_OPCODE are the default ones (30_encoding.md R66), under any budget and any UNMAPPED_AS_NOP. -/
def DefaultMap (s : State) : Prop := s.cfg.opcodeMap = defaultOpcodeMap ∧ s.cfg.haltOpcode = some 0x76

/-- Running in the default map with the byte `op` at PC, a step is the one-byte instruction `i`. -/
def Runs1 (op : Byte) (i : Instr) : Prop :=
  ∀ s : State, s.runState = .running → DefaultMap s → s.readByte s.pc = op → step s = exec i s

/-- The same for a two-byte instruction: its operand is the byte after the opcode, the address modulo 65,536. -/
def Runs2 (op : Byte) (i : Byte → Instr) : Prop :=
  ∀ s : State, s.runState = .running → DefaultMap s → s.readByte s.pc = op →
    step s = exec (i (s.readByte (s.pc + 1))) s

/-- The same for a three-byte instruction: its operand is the little-endian word after the opcode. -/
def Runs3 (op : Byte) (i : Word → Instr) : Prop :=
  ∀ s : State, s.runState = .running → DefaultMap s → s.readByte s.pc = op → ∀ imm : Word,
    imm.toNat = (s.readByte (s.pc + 1)).toNat + 256 * (s.readByte (s.pc + 2)).toNat → step s = exec (i imm) s

/-! ## The instructions of each class, with their opcode bytes and operands (30_encoding.md R66) -/

def loadImm16Rows : List (Byte × (Word → Instr) × Reg16) :=
  [(0x01, .ldBCd16, .bc), (0x11, .ldDEd16, .de), (0x21, .ldHLd16, .hl), (0x31, .ldSPd16, .sp)]

def loadImm8Rows : List (Byte × (Byte → Instr) × Reg8) :=
  [(0x06, .ldBd8, .b), (0x0E, .ldCd8, .c), (0x16, .ldDd8, .d), (0x1E, .ldEd8, .e), (0x26, .ldHd8, .h),
   (0x2E, .ldLd8, .l), (0x3E, .ldAd8, .a)]

def storeARows : List (Byte × Instr × Reg16) :=
  [(0x02, .ldAtBCA, .bc), (0x12, .ldAtDEA, .de), (0x77, .ldAtHLA, .hl)]

def loadARows : List (Byte × Instr × Reg16) :=
  [(0x0A, .ldAAtBC, .bc), (0x1A, .ldAAtDE, .de), (0x7E, .ldAAtHL, .hl)]

def inc8Rows : List (Byte × Instr × Reg8) :=
  [(0x04, .incB, .b), (0x0C, .incC, .c), (0x14, .incD, .d), (0x1C, .incE, .e), (0x24, .incH, .h), (0x2C, .incL, .l),
   (0x3C, .incA, .a)]

def dec8Rows : List (Byte × Instr × Reg8) :=
  [(0x05, .decB, .b), (0x0D, .decC, .c), (0x15, .decD, .d), (0x1D, .decE, .e), (0x25, .decH, .h), (0x2D, .decL, .l),
   (0x3D, .decA, .a)]

def inc16Rows : List (Byte × Instr × Reg16) :=
  [(0x03, .incBC, .bc), (0x13, .incDE, .de), (0x23, .incHL, .hl), (0x33, .incSP, .sp)]

def dec16Rows : List (Byte × Instr × Reg16) :=
  [(0x0B, .decBC, .bc), (0x1B, .decDE, .de), (0x2B, .decHL, .hl), (0x3B, .decSP, .sp)]

def addHLRows : List (Byte × Instr × Reg16) :=
  [(0x09, .addHLBC, .bc), (0x19, .addHLDE, .de), (0x29, .addHLHL, .hl), (0x39, .addHLSP, .sp)]

/-- Opcode, instruction, tested bit of F, and its value when the jump is taken (44_branch.md R176). -/
def jumpIfRows : List (Byte × (Byte → Instr) × Nat × Bool) :=
  [(0x20, .jrNZ, 7, false), (0x28, .jrZ, 7, true), (0x30, .jrNC, 4, false), (0x38, .jrC, 4, true)]

/-! ## Tables over all instructions -/

/-- The bits of F each instruction may write (10_state.md R24). -/
def flagBitsWritten (i : Instr) : List Nat :=
  if i ∈ [.incB, .incC, .incD, .incE, .incH, .incL, .incA, .decB, .decC, .decD, .decE, .decH, .decL, .decA] then
    [7, 6, 5]
  else if i ∈ [.addHLBC, .addHLDE, .addHLHL, .addHLSP] then [5, 4]
  else if i ∈ [.rlca, .xorA] then [7, 6, 5, 4]
  else []

/-- The addresses each instruction stores to (20_memory.md R47). -/
def storedAt (s : State) : Instr → List Word
  | .ldAtBCA => [s.r16 .bc]
  | .ldAtDEA => [s.r16 .de]
  | .ldAtHLA => [s.r16 .hl]
  | .ldAtA16SP a16 => [a16, a16 + 1]
  | _ => []

/-- The displacement of a relative jump that is taken in a state (44_branch.md R170 to R174). -/
def takenBy (s : State) : Instr → Option Byte
  | .jrNZ e8 => if s.f.getLsbD 7 then none else some e8
  | .jrZ e8 => if s.f.getLsbD 7 then some e8 else none
  | .jrNC e8 => if s.f.getLsbD 4 then none else some e8
  | .jrC e8 => if s.f.getLsbD 4 then some e8 else none
  | .jr e8 => some e8
  | _ => none

/-- The length of each instruction (the length column of 70_reset_and_hazards.md R231). -/
def lengthOf : Instr → Nat
  | .ldBCd16 _ | .ldDEd16 _ | .ldHLd16 _ | .ldSPd16 _ | .ldAtA16SP _ => 3
  | .stop _ | .ldBd8 _ | .ldCd8 _ | .ldDd8 _ | .ldEd8 _ | .ldHd8 _ | .ldLd8 _ | .ldAd8 _ => 2
  | .jrNZ _ | .jrZ _ | .jrNC _ | .jrC _ | .jr _ => 2
  | _ => 1

/-- The cost of each instruction in a state (the cycles column of 70_reset_and_hazards.md R231). -/
def costOf (s : State) : Instr → Nat
  | .ldBCd16 _ | .ldDEd16 _ | .ldHLd16 _ | .ldSPd16 _ => 12
  | .ldBd8 _ | .ldCd8 _ | .ldDd8 _ | .ldEd8 _ | .ldHd8 _ | .ldLd8 _ | .ldAd8 _ => 8
  | .ldAtBCA | .ldAtDEA | .ldAtHLA | .ldAAtBC | .ldAAtDE | .ldAAtHL => 8
  | .ldAtA16SP _ => 20
  | .incBC | .incDE | .incHL | .incSP | .decBC | .decDE | .decHL | .decSP => 8
  | .addHLBC | .addHLDE | .addHLHL | .addHLSP => 8
  | .jrNZ e8 => if (takenBy s (.jrNZ e8)).isSome then 12 else 8
  | .jrZ e8 => if (takenBy s (.jrZ e8)).isSome then 12 else 8
  | .jrNC e8 => if (takenBy s (.jrNC e8)).isSome then 12 else 8
  | .jrC e8 => if (takenBy s (.jrC e8)).isSome then 12 else 8
  | .jr _ => 12
  | _ => 4

/-- The unmapped bytes of the default map (30_encoding.md R68). -/
def unmappedByte (b : Byte) : Bool :=
  let n := b.toNat
  n ∈ [0x0F, 0x17, 0x1F, 0x22, 0x27, 0x2A, 0x2F, 0x32, 0x3A] || (0x34 ≤ n && n ≤ 0x37) || (0x3F ≤ n && n ≤ 0x75) ||
    (0x78 ≤ n && n ≤ 0x7D) || (0x7F ≤ n && n ≤ 0xAE) || 0xB0 ≤ n

/-- Runs instructions one after another. -/
def execAll : List Instr → State → Host.Outcome State Fault Refusal
  | [], s => .next s
  | i :: is, s =>
    match exec i s with
    | .next t => execAll is t
    | .fault r => .fault r
    | .refused r => .refused r

/-- The same state under another budget. -/
def withBudget (s : State) (budget : Nat) : State := { s with cfg := { s.cfg with budget := budget } }

end Sys2Proof.Claims

open Sys2Proof.Claims

/-! ## Instructions: result, flags, frame and completion -/

/-- 40_control_misc.md R80. NOP, also as what an unmapped byte runs under UNMAPPED_AS_NOP. -/
def Obligations.NopAdvancesPcOnly : Prop :=
  Runs1 0x00 .nop ∧ (∀ cfg b, cfg.mappedOp b = none → cfg.unmappedAsNop = true → decode cfg [b] = .ok (.nop, [])) ∧
  ∀ s : State, ∃ t, exec .nop s = .next t ∧ Retires 1 4 s t ∧ KeepsR8But [] s t ∧ t.sp = s.sp ∧ KeepsMemBut [] s t ∧
    KeepsEngine s t

/-- 40_control_misc.md R81. STOP skips its second byte, whatever it is, and stops nothing. -/
def Obligations.StopSkipsTwoBytesOnly : Prop :=
  Runs2 0x10 .stop ∧
  ∀ skipped s, ∃ t, exec (.stop skipped) s = .next t ∧ Retires 2 4 s t ∧ KeepsR8But [] s t ∧ t.sp = s.sp ∧
    KeepsMemBut [] s t ∧ KeepsEngine s t

/-- 40_control_misc.md R82. HALT completes and enters Halted; its byte is HALT_OPCODE (where no other handler has
that byte; note 2), unmapped when that is absent;
the frame it runs in returns Halted with no refresh and the counter kept; a later frame runs no step, and nothing the
host does but reset leaves Halted. -/
def Obligations.HaltEntersHalted : Prop :=
  Config.default.haltOpcode = some 0x76 ∧ Runs1 0x76 .halt ∧
  (∀ cfg b, cfg.haltFree = true → cfg.haltOpcode = some b → decode cfg [b] = .ok (.halt, [])) ∧
  decode { Config.default with haltOpcode := none } [0x76] = .error (.unimplementedOpcode 0x76) ∧
  ∀ s : State, ∃ t, exec .halt s = .next t ∧ Retires 1 4 s t ∧ KeepsR8But [] s t ∧ t.sp = s.sp ∧ KeepsMemBut [] s t ∧
    t.runState = .halted ∧ t.cfg = s.cfg ∧
    (runFrame t).steps = 0 ∧ (runFrame t).state = t ∧
    (∀ act : HostAction, act ≠ .reset → (t.apply act).runState = .halted) ∧
    (s.runState = .running → s.frameCycles < s.cfg.budget → s.fetch = some .halt →
      runFrame s = { outcome := .halted, state := t, steps := 1, total := t.frameCycles, refreshes := 0 })

/-- 41_load_store.md R90 to R93. LD rr,d16. -/
def Obligations.LoadImmediateWord : Prop :=
  ∀ op i r, (op, i, r) ∈ loadImm16Rows → Runs3 op i ∧ ∀ d16 s,
    ∃ t, exec (i d16) s = .next t ∧ Holds16 t d16.toNat r ∧ Retires 3 12 s t ∧ KeepsR8But (halves r) s t ∧
      KeepsSPUnless r s t ∧ KeepsMemBut [] s t ∧ KeepsEngine s t

/-- 41_load_store.md R94 to R100. LD r,d8. -/
def Obligations.LoadImmediateByte : Prop :=
  ∀ op i r, (op, i, r) ∈ loadImm8Rows → Runs2 op i ∧ ∀ d8 s,
    ∃ t, exec (i d8) s = .next t ∧ t.r8 r = d8 ∧ Retires 2 8 s t ∧ KeepsR8But [r] s t ∧ t.sp = s.sp ∧
      KeepsMemBut [] s t ∧ KeepsEngine s t

/-- 41_load_store.md R101 to R103. LD (rr),A. One byte changes, at the pair's value; when that is the next opcode byte,
the next fetch sees it. Memory is in its canonical form, which every step keeps. -/
def Obligations.StoreAccumulatorThroughPair : Prop :=
  ∀ op i r, (op, i, r) ∈ storeARows → Runs1 op i ∧ ∀ s : State, s.mem.wf = true →
    (s.r16 r).toNat = value16 s r ∧
    ∃ t, exec i s = .next t ∧ t.readByte (s.r16 r) = s.a ∧ KeepsMemBut [s.r16 r] s t ∧
      (s.r16 r = s.pc + 1 → t.opcode = s.a) ∧
      Retires 1 8 s t ∧ KeepsR8But [] s t ∧ t.sp = s.sp ∧ KeepsEngine s t

/-- 41_load_store.md R104 to R106. LD A,(rr). -/
def Obligations.LoadAccumulatorThroughPair : Prop :=
  ∀ op i r, (op, i, r) ∈ loadARows → Runs1 op i ∧ ∀ s : State,
    (s.r16 r).toNat = value16 s r ∧
    ∃ t, exec i s = .next t ∧ t.a = s.readByte (s.r16 r) ∧ Retires 1 8 s t ∧ KeepsR8But [.a] s t ∧ t.sp = s.sp ∧
      KeepsMemBut [] s t ∧ KeepsEngine s t

/-- 41_load_store.md R107. LD (a16),SP: low byte at a16, high byte at the next address modulo 65,536. -/
def Obligations.StoreStackPointer : Prop :=
  Runs3 0x08 .ldAtA16SP ∧
  ∀ a16 s, s.mem.wf = true →
    ∃ t, exec (.ldAtA16SP a16) s = .next t ∧ (t.readByte a16).toNat = s.sp.toNat % 256 ∧
      (t.readByte (a16 + 1)).toNat = s.sp.toNat / 256 ∧ KeepsMemBut [a16, a16 + 1] s t ∧ Retires 3 20 s t ∧
      KeepsR8But [] s t ∧ t.sp = s.sp ∧ KeepsEngine s t

/-- 42_alu8.md R120 to R126 and R136. INC r. -/
def Obligations.IncrementByteRegister : Prop :=
  ∀ op i r, (op, i, r) ∈ inc8Rows → Runs1 op i ∧ ∀ s : State,
    ∃ t, exec i s = .next t ∧ (t.r8 r).toNat = ((s.r8 r).toNat + 1) % 256 ∧
      FlagsAre t (decide ((t.r8 r).toNat = 0)) false (decide ((s.r8 r).toNat % 16 + 1 > 15)) (s.f.getLsbD 4) ∧
      KeepsLowF s t ∧ Retires 1 4 s t ∧ KeepsR8But [r, .f] s t ∧ t.sp = s.sp ∧ KeepsMemBut [] s t ∧ KeepsEngine s t

/-- 42_alu8.md R127 to R133 and R137. DEC r. -/
def Obligations.DecrementByteRegister : Prop :=
  ∀ op i r, (op, i, r) ∈ dec8Rows → Runs1 op i ∧ ∀ s : State,
    ∃ t, exec i s = .next t ∧ ((t.r8 r).toNat : Int) = (((s.r8 r).toNat : Int) - 1) % 256 ∧
      FlagsAre t (decide ((s.r8 r).toNat = 1)) true (decide ((s.r8 r).toNat % 16 = 0)) (s.f.getLsbD 4) ∧
      KeepsLowF s t ∧ Retires 1 4 s t ∧ KeepsR8But [r, .f] s t ∧ t.sp = s.sp ∧ KeepsMemBut [] s t ∧ KeepsEngine s t

/-- 42_alu8.md R134. RLCA: a circular rotate of eight bits, so that eight of them restore A. -/
def Obligations.RotateAccumulatorLeft : Prop :=
  Runs1 0x07 .rlca ∧
  (∀ s : State, ∃ t, exec .rlca s = .next t ∧ t.a.toNat = 2 * s.a.toNat % 256 + s.a.toNat / 128 ∧
    FlagsAre t false false false (decide (128 ≤ s.a.toNat)) ∧ KeepsLowF s t ∧ Retires 1 4 s t ∧
    KeepsR8But [.a, .f] s t ∧ t.sp = s.sp ∧ KeepsMemBut [] s t ∧ KeepsEngine s t) ∧
  ∀ s : State, ∃ t, execAll (List.replicate 8 .rlca) s = .next t ∧ t.a = s.a

/-- 42_alu8.md R135. XOR A. -/
def Obligations.XorClearsAccumulator : Prop :=
  Runs1 0xAF .xorA ∧
  ∀ s : State, ∃ t, exec .xorA s = .next t ∧ t.a = 0 ∧ FlagsAre t true false false false ∧ KeepsLowF s t ∧
    Retires 1 4 s t ∧ KeepsR8But [.a, .f] s t ∧ t.sp = s.sp ∧ KeepsMemBut [] s t ∧ KeepsEngine s t

/-- 43_alu16.md R150 to R153. INC rr. -/
def Obligations.IncrementWordRegister : Prop :=
  ∀ op i r, (op, i, r) ∈ inc16Rows → Runs1 op i ∧ ∀ s : State,
    ∃ t, exec i s = .next t ∧ Holds16 t ((value16 s r + 1) % 65536) r ∧ Retires 1 8 s t ∧
      KeepsR8But (halves r) s t ∧ KeepsSPUnless r s t ∧ KeepsMemBut [] s t ∧ KeepsEngine s t

/-- 43_alu16.md R154 to R157. DEC rr. -/
def Obligations.DecrementWordRegister : Prop :=
  ∀ op i r, (op, i, r) ∈ dec16Rows → Runs1 op i ∧ ∀ s : State,
    ∃ t, exec i s = .next t ∧ Holds16 t (((value16 s r : Int) - 1) % 65536).toNat r ∧ Retires 1 8 s t ∧
      KeepsR8But (halves r) s t ∧ KeepsSPUnless r s t ∧ KeepsMemBut [] s t ∧ KeepsEngine s t

/-- 43_alu16.md R158 to R163. ADD HL,rr: H and C from the carries out of bits 11 and 15, Z and N kept; HL added to
itself gives its old bits 15 and 11. -/
def Obligations.AddIntoHL : Prop :=
  ∀ op i r, (op, i, r) ∈ addHLRows → Runs1 op i ∧ ∀ s : State,
    ∃ t, exec i s = .next t ∧ Holds16 t ((value16 s .hl + value16 s r) % 65536) .hl ∧
      FlagsAre t (s.f.getLsbD 7) (s.f.getLsbD 6) (decide (value16 s .hl % 4096 + value16 s r % 4096 ≥ 4096))
        (decide (value16 s .hl + value16 s r ≥ 65536)) ∧
      (r = .hl → t.f.getLsbD 4 = s.h.getLsbD 7 ∧ t.f.getLsbD 5 = s.h.getLsbD 3) ∧
      KeepsLowF s t ∧ Retires 1 8 s t ∧ KeepsR8But [.h, .l, .f] s t ∧ t.sp = s.sp ∧ KeepsMemBut [] s t ∧
      KeepsEngine s t

/-- 44_branch.md R170 to R173, R175, R176. JR cc. -/
def Obligations.ConditionalJump : Prop :=
  ∀ op i bit taken, (op, i, bit, taken) ∈ jumpIfRows → Runs2 op i ∧ ∀ e8 s,
    ∃ t, exec (i e8) s = .next t ∧
      (s.f.getLsbD bit = taken →
        (t.pc.toNat : Int) = ((s.pc.toNat : Int) + 2 + signed e8) % 65536 ∧ t.frameCycles = s.frameCycles + 12) ∧
      (s.f.getLsbD bit ≠ taken → Retires 2 8 s t) ∧
      KeepsR8But [] s t ∧ t.sp = s.sp ∧ KeepsMemBut [] s t ∧ KeepsEngine s t

/-- 44_branch.md R174. JR. -/
def Obligations.UnconditionalJump : Prop :=
  Runs2 0x18 .jr ∧
  ∀ e8 s, ∃ t, exec (.jr e8) s = .next t ∧ (t.pc.toNat : Int) = ((s.pc.toNat : Int) + 2 + signed e8) % 65536 ∧
      t.frameCycles = s.frameCycles + 12 ∧ KeepsR8But [] s t ∧ t.sp = s.sp ∧ KeepsMemBut [] s t ∧ KeepsEngine s t

/-! ## Rules over all instructions -/

/-- 10_state.md R23. No instruction and no step changes bits 3 to 0 of F; after reset they are 0. -/
def Obligations.LowBitsOfFAreKept : Prop :=
  (∀ i s t, exec i s = .next t → KeepsLowF s t) ∧ (∀ s t, step s = .next t → KeepsLowF s t) ∧
  ∀ n, n < 4 → State.reset.f.getLsbD n = false

/-- 10_state.md R24. A flag an instruction does not name keeps its value. -/
def Obligations.UnnamedFlagsAreKept : Prop :=
  ∀ i s t, exec i s = .next t → ∀ n, n < 8 → n ∉ flagBitsWritten i → t.f.getLsbD n = s.f.getLsbD n

/-- 10_state.md R17. Only LD SP, INC SP and DEC SP write SP, only LD (a16),SP and ADD HL,SP read it besides; every
other instruction does the same whatever SP holds and leaves it. -/
def Obligations.StackPointerWriters : Prop :=
  (∀ i s t, exec i s = .next t → t.sp ≠ s.sp → i = .incSP ∨ i = .decSP ∨ ∃ d16, i = .ldSPd16 d16) ∧
  ∀ i s t v, exec i s = .next t → i ∉ [.incSP, .decSP, .addHLSP] → (∀ w, i ≠ .ldSPd16 w ∧ i ≠ .ldAtA16SP w) →
    exec i { s with sp := v } = .next { t with sp := v }

/-- 10_state.md R19. PC moves by the instruction's length, and by the displacement as well where a jump is taken; a
decode fault leaves it. -/
def Obligations.ProgramCounterAdvance : Prop :=
  (∀ i s t, exec i s = .next t → (t.pc.toNat : Int) =
    ((s.pc.toNat : Int) + lengthOf i + ((takenBy s i).map signed).getD 0) % 65536) ∧
  ∀ s : State, s.takeFault.pc = s.pc

/-- 20_memory.md R47. Memory changes only where an instruction stores. Memory is in its canonical form. -/
def Obligations.MemoryChangesOnlyWhereStored : Prop :=
  ∀ i s t, s.mem.wf = true → exec i s = .next t → KeepsMemBut (storedAt s i) s t

/-- 70_reset_and_hazards.md R231. The cost of every instruction, one of 4, 8, 12, 20, and its length; an unmapped byte
is NOP, of cost 4, under UNMAPPED_AS_NOP, and else adds nothing. -/
def Obligations.CycleCosts : Prop :=
  (∀ i s t, exec i s = .next t → t.frameCycles = s.frameCycles + costOf s i ∧ costOf s i ∈ [4, 8, 12, 20]) ∧
  (∀ i, Instr.length i = lengthOf i) ∧
  (∀ cfg b, cfg.mappedOp b = none → cfg.unmappedAsNop = true → decode cfg [b] = .ok (.nop, [])) ∧
  ∀ s : State, s.takeFault.frameCycles = s.frameCycles

/-- 10_state.md R25. HALT and a decode fault lead to Halted, every other instruction leaves the run state, none reads
it; no host action but a frame, a step and reset writes it; Halted stays until reset, which leads to Running. -/
def Obligations.OnlyHaltStopsEngine : Prop :=
  (∀ i s t, exec i s = .next t → t.runState = if i = .halt then .halted else s.runState) ∧
  (∀ i s t r, exec i s = .next t → i ≠ .halt → exec i { s with runState := r } = .next { t with runState := r }) ∧
  (∀ s : State, s.takeFault.runState = .halted) ∧
  (∀ (s : State) act, act ∉ [HostAction.runFrame, .step, .reset] → (s.apply act).runState = s.runState) ∧
  (∀ (s : State) act, act ≠ HostAction.reset → s.runState = .halted → (s.apply act).runState = .halted) ∧
  ∀ s : State, s.externalReset.runState = .running

/-- 60_exceptions.md R200: no handler raises anything; every instruction completes from every state. -/
def Obligations.EveryInstructionCompletes : Prop := ∀ i s, ∃ t, exec i s = .next t

/-! ## Encoding -/

/-- Words written out from 30_encoding.md R66, some of each family. -/
def Obligations.SpecWordsDecode : Prop :=
  decode Config.default [0x01, 0x34, 0x12] = .ok (.ldBCd16 0x1234, []) ∧
  decode Config.default [0x08, 0x00, 0xC1] = .ok (.ldAtA16SP 0xC100, []) ∧
  decode Config.default [0x06, 0x03] = .ok (.ldBd8 0x03, []) ∧
  decode Config.default [0x77] = .ok (.ldAtHLA, []) ∧
  decode Config.default [0x05] = .ok (.decB, []) ∧
  decode Config.default [0xAF] = .ok (.xorA, []) ∧
  decode Config.default [0x39] = .ok (.addHLSP, []) ∧
  decode Config.default [0x20, 0xFD] = .ok (.jrNZ 0xFD, []) ∧
  decode Config.default [0x10, 0xD3] = .ok (.stop 0xD3, []) ∧
  decode Config.default [0x76] = .ok (.halt, [])

/-- 30_encoding.md R60 to R64. Under every configuration that is sound, every instruction it names has an encoding of
its length, and decoding it, whatever follows, gives the instruction and what follows. -/
def Obligations.DecodeAfterEncode : Prop :=
  ∀ cfg i rest, cfg.wf = true → i.wf cfg = true →
    ∃ bytes, encode cfg i = some bytes ∧ bytes.length = lengthOf i ∧ decode cfg (bytes ++ rest) = .ok (i, rest)

/-- 30_encoding.md R60 to R66. In the default configuration each byte sequence has one reading: what decodes was
encoded, and every instruction has an encoding. -/
def Obligations.EncodeAfterDecode : Prop :=
  (∀ bytes i rest, decode Config.default bytes = .ok (i, rest) →
    ∃ front, encode Config.default i = some front ∧ bytes = front ++ rest) ∧
  ∀ i, Instr.wf Config.default i = true

/-- 30_encoding.md R68. The 202 bytes with no handler in the default map, and only they, are rejected by name; a step
that fetches one raises the fault unless UNMAPPED_AS_NOP is set, and no operand byte ever does. -/
def Obligations.UnmappedBytesAreRejected : Prop :=
  ((List.range 256).filter (fun n => unmappedByte (BitVec.ofNat 8 n))).length = 202 ∧
  (∀ s : State, s.runState = .running → DefaultMap s →
    ((∃ r, step s = .fault r) ↔ s.cfg.unmappedAsNop = false ∧ unmappedByte (s.readByte s.pc) = true)) ∧
  ∀ b x y, (unmappedByte b = true → decode Config.default [b, x, y] = .error (.unimplementedOpcode b)) ∧
    (unmappedByte b = false → ∃ i rest, decode Config.default [b, x, y] = .ok (i, rest))

/-- 30_encoding.md R69. Under UNMAPPED_AS_NOP an unmapped byte is NOP and no step faults. -/
def Obligations.NopFillNeverFaults : Prop :=
  Config.default.unmappedAsNop = false ∧
  ∀ s : State, s.cfg.unmappedAsNop = true →
    (∀ r, step s ≠ .fault r) ∧
    (s.runState = .running → s.cfg.mappedOp (s.readByte s.pc) = none →
      ∃ t, step s = .next t ∧ Retires 1 4 s t ∧ KeepsR8But [] s t ∧ t.sp = s.sp ∧ KeepsMemBut [] s t ∧
        KeepsEngine s t)

/-- 30_encoding.md R71. A jump assembled for a target within range, when taken, reaches it. -/
def Obligations.AssembledJumpReachesTarget : Prop :=
  ∀ p target : Word, -128 ≤ (target.toNat : Int) - ((p.toNat : Int) + 2) →
    (target.toNat : Int) - ((p.toNat : Int) + 2) ≤ 127 →
    ∃ e8, assembleDisplacement p target = some e8 ∧
      (e8.toNat : Int) = ((target.toNat : Int) - ((p.toNat : Int) + 2)) % 256 ∧
      ∀ s : State, s.pc = p → ∃ t, exec (.jr e8) s = .next t ∧ t.pc = target

/-! ## The step -/

/-- 49_engine.md R181 to R184. Running, the bytes at PC, addresses modulo 65,536, decode to an instruction: the step is
that instruction. -/
def Obligations.StepRunsDecodedInstruction : Prop :=
  ∀ s i rest, s.runState = .running →
    decode s.cfg [s.readByte s.pc, s.readByte (s.pc + 1), s.readByte (s.pc + 2)] = .ok (i, rest) →
    step s = exec i s

/-- 60_exceptions.md R209. Running, the byte at PC has no handler: the step raises a decode fault, and the frame returns
that fault, with only the run state changed. -/
def Obligations.DecodeFaultHaltsOnly : Prop :=
  ∀ s : State, s.runState = .running → s.cfg.decodeByte (s.readByte s.pc) = none →
    ∃ r : Fault, step s = .fault r ∧ r.kind = .decodeFault ∧ s.takeFault = { s with runState := .halted } ∧
      (s.frameCycles < s.cfg.budget → runFrame s =
        { outcome := .fault r, state := { s with runState := .halted }, steps := 0, total := s.frameCycles,
          refreshes := 0 })

/-- 60_exceptions.md R202. Whether a Running engine faults depends on the opcode byte and the configuration only. -/
def Obligations.FaultDependsOnOpcodeOnly : Prop :=
  ∀ s u, s.runState = .running → u.runState = .running → s.cfg = u.cfg → s.readByte s.pc = u.readByte u.pc →
    ((∃ r, step s = .fault r) ↔ ∃ r, step u = .fault r)

/-- 60_exceptions.md R200, R203. The only fault of a step is DecodeFault of the byte at PC; AddressRangeFault is never
raised, and no step refuses. -/
def Obligations.OnlyDecodeFaultsOccur : Prop :=
  ∀ s : State, (∀ r, step s = .fault r → r = .decodeFault (s.readByte s.pc) s.pc ∧ s.cfg.decodeByte (s.readByte s.pc) = none) ∧
    step s ≠ .fault .addressRangeFault ∧ ∀ r, step s ≠ .refused r

/-- 20_memory.md R42. A write stores the value modulo 256 at its address and changes no other byte and no register. -/
def Obligations.MemoryWriteChangesOneByte : Prop :=
  ∀ (s : State) addr (v : Int), s.mem.wf = true →
    (((s.hostWriteByte addr v).readByte addr).toNat : Int) = v % 256 ∧
    KeepsMemBut [addr] s (s.hostWriteByte addr v) ∧ { s.hostWriteByte addr v with mem := s.mem } = s

/-! ## Invariants -/

/-- From every state that has the invariant, every step keeps it, and the configuration. -/
def Obligations.StepKeepsInvariant : Prop :=
  ∀ s t, s.Inv → step s = .next t → t.Inv ∧ t.cfg = s.cfg

/-- The reset state has the invariant, and the counter is in its bound. -/
def Obligations.ResetHasInvariant : Prop := State.reset.Inv ∧ State.reset.CounterBounded

/-- 49_engine.md R192, R194, R195. From every state that has the invariant every host action keeps it and the
configuration; every one but the single step keeps the counter in its bound, and a single step adds at most 20 to it.
So they do in any sequence from an engine a host could construct. -/
def Obligations.HostRunsKeepInvariant : Prop :=
  (∀ (s : State) act, s.Inv → (s.apply act).Inv ∧ (s.apply act).cfg = s.cfg ∧
    (act ≠ .step → s.CounterBounded → (s.apply act).CounterBounded) ∧
    (s.apply .step).frameCycles ≤ s.frameCycles + 20) ∧
  ∀ budget fill map halt s acts, construct budget fill map halt = .ok s →
    (s.applyAll acts).Inv ∧ (s.applyAll acts).cfg = s.cfg ∧
    (HostAction.step ∉ acts → (s.applyAll acts).CounterBounded)

/-! ## Reset, construction, loading and host writes -/

/-- 10_state.md R30. What creation leaves, and the defaults of the configuration. -/
def Obligations.ResetValues : Prop :=
  State.reset = State.create Config.default ∧
  ∀ cfg, (∀ r, (State.create cfg).r8 r = 0) ∧ (∀ r, (State.create cfg).r16 r = 0) ∧
    (∀ k, (State.create cfg).flag k = false) ∧ (State.create cfg).pc = 0 ∧
    (∀ addr, (State.create cfg).readByte addr = 0) ∧ (State.create cfg).runState = .running ∧
    (State.create cfg).frameCycles = 0 ∧ (State.create cfg).cfg = cfg

/-- 70_reset_and_hazards.md R220. Reset re-creates the engine and keeps its configuration. -/
def Obligations.ExternalResetRecreates : Prop :=
  ∀ s : State, s.externalReset.cfg = s.cfg ∧ (∀ r, s.externalReset.r8 r = 0) ∧ s.externalReset.sp = 0 ∧
    s.externalReset.pc = 0 ∧ (∀ addr, s.externalReset.readByte addr = 0) ∧ s.externalReset.runState = .running ∧
    s.externalReset.frameCycles = 0

/-- 60_exceptions.md R204. A budget below 1 is refused with ConfigurationError; every other configuration gives the
created engine. -/
def Obligations.ConfigurationErrorIffBudgetBelowOne : Prop :=
  ∀ budget fill map halt,
    (budget < 1 → construct budget fill map halt = .error .configurationError) ∧
    (1 ≤ budget → ∃ s, construct budget fill map halt = .ok s ∧ (s.cfg.budget : Int) = budget ∧
      s.cfg.unmappedAsNop = fill ∧ s.cfg.opcodeMap = map ∧ s.cfg.haltOpcode = halt ∧ s = State.create s.cfg)

/-- 70_reset_and_hazards.md R222. The image goes to addresses 0 to n - 1, every other byte stays (0x00 after reset), no
register changes; a longer image is refused; after reset byte 0 of the image is the first opcode. -/
def Obligations.LoaderWritesImage : Prop :=
  ∀ (s : State) image, s.mem.wf = true →
    (image.length ≤ 65536 → ∃ t, s.load image = .ok t ∧
      (∀ addr : Word, t.readByte addr = (image[addr.toNat]?).getD (s.readByte addr)) ∧ { t with mem := s.mem } = s) ∧
    (65536 < image.length → s.load image = .error .imageTooLong) ∧
    ∀ t, s.externalReset.load image = .ok t → t.readByte t.pc = (image[0]?).getD 0

/-- 10_state.md R15, R16. A pair reads back what was written, modulo 65,536, its halves are the two bytes, nothing else
changes, and a write to a half changes what the pair reads. -/
def Obligations.PairRoundTrip : Prop :=
  ∀ (s : State) (v : Int),
    (∀ r, (((s.hostWriteR16 r v).r16 r).toNat : Int) = v % 65536 ∧ Holds16 (s.hostWriteR16 r v) (v % 65536).toNat r ∧
      KeepsR8But (halves r) s (s.hostWriteR16 r v) ∧ KeepsSPUnless r s (s.hostWriteR16 r v) ∧
      KeepsAllButData s (s.hostWriteR16 r v)) ∧
    (((s.hostWriteR8 .b v).r16 .bc).toNat : Int) = v % 256 * 256 + s.c.toNat ∧
    (((s.hostWriteR8 .c v).r16 .bc).toNat : Int) = s.b.toNat * 256 + v % 256 ∧
    (((s.hostWriteR8 .d v).r16 .de).toNat : Int) = v % 256 * 256 + s.e.toNat ∧
    (((s.hostWriteR8 .e v).r16 .de).toNat : Int) = s.d.toNat * 256 + v % 256 ∧
    (((s.hostWriteR8 .h v).r16 .hl).toNat : Int) = v % 256 * 256 + s.l.toNat ∧
    (((s.hostWriteR8 .l v).r16 .hl).toNat : Int) = s.h.toNat * 256 + v % 256

/-- 10_state.md R11, R13. A write of any integer stores it modulo 256 or 65,536 and changes nothing else. -/
def Obligations.RegisterWritesMask : Prop :=
  ∀ (s : State) (v : Int),
    (∀ r, (((s.hostWriteR8 r v).r8 r).toNat : Int) = v % 256 ∧ KeepsR8But [r] s (s.hostWriteR8 r v) ∧
      (s.hostWriteR8 r v).sp = s.sp ∧ KeepsAllButData s (s.hostWriteR8 r v)) ∧
    ((s.hostWriteR16 .sp v).sp.toNat : Int) = v % 65536 ∧ { s.hostWriteR16 .sp v with sp := s.sp } = s ∧
    ((s.hostWritePC v).pc.toNat : Int) = v % 65536 ∧ { s.hostWritePC v with pc := s.pc } = s

/-- 10_state.md R22. Writing a flag sets its bit of F, any non-zero value as 1, and keeps the other seven. -/
def Obligations.FlagWriteSetsOneBit : Prop :=
  ∀ (s : State) (v : Int) k bit, (k, bit) ∈ [(Flag.z, 7), (.n, 6), (.h, 5), (.c, 4)] →
    s.flag k = s.f.getLsbD bit ∧ (s.hostWriteFlag k v).f.getLsbD bit = decide (v ≠ 0) ∧
    (∀ n, n < 8 → n ≠ bit → (s.hostWriteFlag k v).f.getLsbD n = s.f.getLsbD n) ∧
    { s.hostWriteFlag k v with f := s.f } = s

/-! ## Frames -/

/-- 49_engine.md R189. A frame of a Halted engine: no step, no refresh, no change. -/
def Obligations.HaltedIsTerminal : Prop :=
  ∀ s : State, s.runState = .halted →
    runFrame s = { outcome := .halted, state := s, steps := 0, total := s.frameCycles, refreshes := 0 }

/-- 49_engine.md R185. A frame entered with the counter at or over the budget runs no step. -/
def Obligations.FullCounterRunsNoStep : Prop :=
  ∀ s : State, s.runState = .running → s.cfg.budget ≤ s.frameCycles →
    runFrame s =
      { outcome := .frameComplete, state := { s with frameCycles := 0 }, steps := 0, total := s.frameCycles,
        refreshes := 1 }

/-- 49_engine.md R188. Every frame ends in one of the three outcomes, and in the state that outcome names, after at most
`ceil(BUDGET / 4)` steps. -/
def Obligations.FrameHasThreeOutcomes : Prop :=
  ∀ s : State, (runFrame s).steps ≤ (s.cfg.budget + 3) / 4 ∧
    (((runFrame s).outcome = .frameComplete ∧ (runFrame s).refreshes = 1 ∧ (runFrame s).state.frameCycles = 0 ∧
      (runFrame s).state.runState = .running ∧ s.cfg.budget ≤ (runFrame s).total) ∨
    (∃ opcode p, (runFrame s).outcome = .fault (.decodeFault opcode p) ∧ (runFrame s).refreshes = 0 ∧
      (runFrame s).state.runState = .halted ∧ (runFrame s).state.pc = p ∧
      (runFrame s).state.readByte p = opcode) ∨
    ((runFrame s).outcome = .halted ∧ (runFrame s).refreshes = 0 ∧ (runFrame s).state.runState = .halted))

/-- 49_engine.md R190. A frame entered at 0 that completes: its total is at least the budget and at most 19 over, and
its steps are bounded by the smallest and the largest cost. -/
def Obligations.CompletedFrameBounds : Prop :=
  ∀ s : State, 1 ≤ s.cfg.budget → s.frameCycles = 0 → (runFrame s).outcome = .frameComplete →
    s.cfg.budget ≤ (runFrame s).total ∧ (runFrame s).total ≤ s.cfg.budget + 19 ∧
    (s.cfg.budget + 19) / 20 ≤ (runFrame s).steps ∧ (runFrame s).steps ≤ (s.cfg.budget + 3) / 4

/-- 49_engine.md R190. In an image of NOPs a frame is exactly `ceil(budget / 4)` steps, PC moves by that many, modulo
65,536, and nothing else changes, so that the next frame is the same. -/
def Obligations.NopImageFrame : Prop :=
  ∀ s : State, s.runState = .running → s.frameCycles = 0 → s.cfg.decodeByte 0x00 = some .nop →
    (∀ addr, s.readByte addr = 0x00) →
    runFrame s =
      { outcome := .frameComplete
        state := { s with pc := s.pc + BitVec.ofNat 16 ((s.cfg.budget + 3) / 4) }
        steps := (s.cfg.budget + 3) / 4
        total := 4 * ((s.cfg.budget + 3) / 4)
        refreshes := 1 }

/-- 49_engine.md R185, R187. A Halted engine's frame does nothing. A Running engine's frame is a run of its steps:
before each the counter is below the budget; it completes with the counter at the budget or over, one refresh and the
counter then zeroed, or stops at the first HALT or fault with no refresh and the counter kept. -/
def Obligations.FrameIsRunOfSteps : Prop :=
  ∀ s : State,
    (s.runState = .halted → (runFrame s).outcome = .halted ∧ (runFrame s).state = s ∧ (runFrame s).refreshes = 0) ∧
    (s.runState = .running →
    (∀ k, k < (runFrame s).steps → ∃ u, Steps k s u ∧ u.runState = .running ∧ u.frameCycles < u.cfg.budget) ∧
    ∃ u, Steps (runFrame s).steps s u ∧ (runFrame s).total = u.frameCycles ∧
      ((runFrame s).outcome = .frameComplete → u.runState = .running ∧ u.cfg.budget ≤ u.frameCycles ∧
        (runFrame s).state = { u with frameCycles := 0 } ∧ (runFrame s).refreshes = 1) ∧
      ((runFrame s).outcome = .halted → u.runState = .halted ∧ (runFrame s).state = u ∧ (runFrame s).refreshes = 0) ∧
      (∀ r, (runFrame s).outcome = .fault r → u.runState = .running ∧ u.frameCycles < u.cfg.budget ∧
        step u = .fault r ∧ (runFrame s).state = { u with runState := .halted } ∧ (runFrame s).refreshes = 0))

/-- After 10_state.md R26: a frame entered with the counter at most BUDGET - 1 + 20 keeps it there. Single steps of the
host, which end no frame, are excepted (note 15, the model's reading). -/
def Obligations.FrameKeepsCounterBound : Prop :=
  ∀ s : State, s.CounterBounded → (runFrame s).state.CounterBounded ∧ (runFrame s).total ≤ s.cfg.budget - 1 + 20

/-- 49_engine.md R194. The sequence of states does not depend on the budget. -/
def Obligations.BudgetNeverChangesSteps : Prop :=
  ∀ n s t budget, Steps n s t → Steps n (withBudget s budget) (withBudget t budget)

/-- 10_state.md R29. No program can observe the counter: from two states that differ in it alone, the same steps lead to
states that differ in it alone. -/
def Obligations.CounterIsUnobservable : Prop :=
  ∀ n s t k, Steps n s t → ∃ m, Steps n { s with frameCycles := k } { t with frameCycles := m }

/-- The model's choice (note 3), since 49_engine.md R184 defines the step only when Running: a step in Halted answers the
same state, so any number of steps does, and so does a host's single step. -/
def Obligations.HaltedStepsChangeNothing : Prop :=
  ∀ s : State, s.runState = .halted → (∀ n, Steps n s s) ∧ s.apply .step = s

/-- 49_engine.md R184, R192. A host's single step leaves what the step answers, and after a fault the same state but
Halted, from which every later action but reset finds it Halted. -/
def Obligations.HostStepRunsOneStep : Prop :=
  ∀ s : State, (∀ t, step s = .next t → s.apply .step = t) ∧
    (∀ r, step s = .fault r → s.apply .step = { s with runState := .halted }) ∧
    (s.runState = .running → s.cfg.decodeByte (s.readByte s.pc) = none →
      ∀ acts, HostAction.reset ∉ acts → ((s.apply .step).applyAll acts).runState = .halted)
end

