-- ==== Sys2Proof/Laws/Decode.lean ====
section
/-! SUPPORT. The parts of the decoder and of the encoder, once each. -/

namespace Sys2Proof

/-- A mapped byte decodes to its handler. -/
theorem Config.decodeByte_of_mappedOp {cfg : Config} {b : Byte} {op : Op} (h : cfg.mappedOp b = some op) :
    cfg.decodeByte b = some op := by
  simp [Config.decodeByte, h]

/-- An unmapped byte decodes to NOP or to nothing, as the configuration says. -/
theorem Config.decodeByte_of_unmapped {cfg : Config} {b : Byte} (h : cfg.mappedOp b = none) :
    cfg.decodeByte b = if cfg.unmappedAsNop then some .nop else none := by
  simp [Config.decodeByte, h]

/-- The byte the encoder picks from the rows is mapped to the handler. -/
theorem firstByteOf_mapped {cfg : Config} {op : Op} {b : Byte} :
    ∀ {m : OpcodeMap}, firstByteOf cfg op m = some b → cfg.mappedOp b = some op
  | [], h => by cases h
  | (k, _) :: rest, h => by
    unfold firstByteOf at h
    split at h
    · cases h; assumption
    · exact firstByteOf_mapped h

/-- The opcode byte of a handler is mapped to it. -/
theorem Config.byteOf_mapped {cfg : Config} {op : Op} {b : Byte} (h : cfg.byteOf op = some b) :
    cfg.mappedOp b = some op := by
  unfold Config.byteOf at h
  split at h
  · next e => simp [Config.mappedOp, h, e]
  · exact firstByteOf_mapped h

/-- With three bytes at hand, operands are never missing: an instruction is at most three bytes long. -/
theorem takeOperands_of_two (op : Op) (x y : Byte) : ∃ i rest, takeOperands op [x, y] = .ok (i, rest) := by
  cases h : op.format <;> simp [takeOperands, h]

end Sys2Proof
end

