-- ==== Sys2Proof/Laws/Flags.lean ====
section
/-! SUPPORT. The flag accessors: setting one flag changes its bit and no other. -/

namespace Sys2Proof.Machine

/-- Bit by bit: the flag's own bit takes the value, the other seven stay. -/
theorem getLsbD_putFlag (f : Byte) (k : Flag) (v : Bool) (n : Nat) (hn : n < 8) :
    (putFlag f k v).getLsbD n = if n = flagBit k then v else f.getLsbD n := by
  have e : n = 0 ∨ n = 1 ∨ n = 2 ∨ n = 3 ∨ n = 4 ∨ n = 5 ∨ n = 6 ∨ n = 7 := by omega
  rcases e with rfl | rfl | rfl | rfl | rfl | rfl | rfl | rfl <;> cases k <;> cases v <;>
    simp [putFlag, flagBit]

theorem getFlag_putFlag (f : Byte) (k j : Flag) (v : Bool) :
    getFlag (putFlag f k v) j = if j = k then v else getFlag f j := by
  unfold getFlag
  rw [getLsbD_putFlag f k v _ (by cases j <;> decide)]
  cases j <;> cases k <;> rfl

/-- The four unused bits are kept. -/
theorem getLsbD_putFlag_low (f : Byte) (k : Flag) (v : Bool) (n : Nat) (hn : n < 4) :
    (putFlag f k v).getLsbD n = f.getLsbD n := by
  rw [getLsbD_putFlag f k v n (by omega), if_neg]
  cases k <;> simp [flagBit] <;> omega

/-- The half-carry of an increment as the spec's sum of low nibbles. -/
theorem incHalf_eq (old : Byte) : incHalf old = decide (old.toNat % 16 + 1 > 15) := by
  revert old; decide

/-- The half-borrow of a decrement as the spec's test of the low nibble. -/
theorem decHalf_eq (old : Byte) : decHalf old = decide (old.toNat % 16 = 0) := by
  revert old; decide

/-- The carry out of bit 11 as the spec's sum of low 12-bit parts. -/
theorem addHalf16_eq (a b : Word) : addHalf16 a b = decide (a.toNat % 4096 + b.toNat % 4096 ≥ 4096) := by
  have h (x : Word) : (x &&& 0x0FFF#16).toNat = x.toNat % 4096 := by
    rw [BitVec.toNat_and]
    exact Nat.and_two_pow_sub_one_eq_mod x.toNat 12
  simp only [addHalf16, h]
  exact decide_eq_decide.mpr (by omega)

end Sys2Proof.Machine
end

