-- ==== Sys2Proof/Laws/Memory.lean ====
section
/-! SUPPORT. Memory: reading after writing, and the canonical form. -/

namespace Sys2Proof.Machine

theorem Memory.wfFrom_mono {lo lo' : Nat} (h : lo ≤ lo') :
    ∀ {m : Memory}, Memory.wfFrom lo' m = true → Memory.wfFrom lo m = true
  | [], _ => rfl
  | (a, v) :: m, hm => by
    simp only [Memory.wfFrom, Bool.and_eq_true, decide_eq_true_eq] at hm ⊢
    exact ⟨⟨⟨by omega, hm.1.1.2⟩, hm.1.2⟩, hm.2⟩

/-- Below its first address a canonical memory reads 0x00. -/
theorem Memory.read_below {lo a : Nat} (h : a < lo) :
    ∀ {m : Memory}, Memory.wfFrom lo m = true → Memory.read a m = unlistedByte
  | [], _ => rfl
  | (k, v) :: m, hm => by
    simp only [Memory.wfFrom, Bool.and_eq_true, decide_eq_true_eq] at hm
    have hk : k ≠ a := by omega
    have hrest := Memory.read_below (a := a) (by omega) hm.2
    simpa [Memory.read, hk] using hrest

theorem Memory.read_put (a b : Nat) (v : Byte) (m : Memory) (h : Memory.read a m = unlistedByte) :
    Memory.read b (Memory.put a v m) = if a = b then v else Memory.read b m := by
  unfold Memory.put
  split
  · split <;> simp_all
  · rfl

/-- Reading after writing: the written byte at its address, every other byte as before. -/
theorem Memory.read_write {lo : Nat} (a b : Nat) (v : Byte) :
    ∀ {m : Memory}, Memory.wfFrom lo m = true →
      Memory.read b (Memory.write a v m) = if a = b then v else Memory.read b m
  | [], _ => Memory.read_put a b v [] rfl
  | (k, x) :: m, hm => by
    have hm' := hm
    simp only [Memory.wfFrom, Bool.and_eq_true, decide_eq_true_eq] at hm
    unfold Memory.write
    split
    · refine Memory.read_put a b v _ (Memory.read_below (lo := k) (by assumption) ?_)
      simp only [Memory.wfFrom, Bool.and_eq_true, decide_eq_true_eq]
      exact ⟨⟨⟨le_refl k, hm.1.1.2⟩, hm.1.2⟩, hm.2⟩
    · split
      · next h =>
        subst h
        rw [Memory.read_put a b v m (Memory.read_below (lo := a + 1) (by omega) hm.2)]
        simp only [Memory.read]
        split <;> rfl
      · next h =>
        simp only [Memory.read, Memory.read_write a b v hm.2]
        by_cases hk : k = b
        · have : a ≠ b := fun e => h (e.trans hk.symm)
          simp [hk, this]
        · simp [hk]

theorem Memory.wfFrom_put {lo a : Nat} {v : Byte} {m : Memory} (hlo : lo ≤ a) (ha : a < 65536)
    (hm : Memory.wfFrom (a + 1) m = true) : Memory.wfFrom lo (Memory.put a v m) = true := by
  unfold Memory.put
  split
  · exact Memory.wfFrom_mono (by omega) hm
  · next h =>
    simp only [Memory.wfFrom, Bool.and_eq_true, decide_eq_true_eq, bne_iff_ne]
    exact ⟨⟨⟨hlo, ha⟩, h⟩, hm⟩

/-- Writing keeps the canonical form. -/
theorem Memory.wfFrom_write {lo a : Nat} (v : Byte) (hlo : lo ≤ a) (ha : a < 65536) :
    ∀ {m : Memory}, Memory.wfFrom lo m = true → Memory.wfFrom lo (Memory.write a v m) = true
  | [], _ => Memory.wfFrom_put hlo ha rfl
  | (k, x) :: m, hm => by
    simp only [Memory.wfFrom, Bool.and_eq_true, decide_eq_true_eq] at hm
    unfold Memory.write
    split
    · refine Memory.wfFrom_put hlo ha ?_
      simp only [Memory.wfFrom, Bool.and_eq_true, decide_eq_true_eq]
      exact ⟨⟨⟨by omega, hm.1.1.2⟩, hm.1.2⟩, hm.2⟩
    · split
      · next h => exact Memory.wfFrom_put hlo ha (h ▸ hm.2)
      · simp only [Memory.wfFrom, Bool.and_eq_true, decide_eq_true_eq]
        exact ⟨hm.1, Memory.wfFrom_write v (by omega) ha hm.2⟩

theorem Memory.wf_write {a : Nat} {m : Memory} (v : Byte) (ha : a < 65536) (hm : Memory.wf m = true) :
    Memory.wf (Memory.write a v m) = true := Memory.wfFrom_write v (Nat.zero_le a) ha hm

/-- Writing a sequence keeps the canonical form. -/
theorem Memory.wf_writeBytes : ∀ (vs : List Byte) (a : Nat) {m : Memory}, a + vs.length ≤ 65536 →
    Memory.wf m = true → Memory.wf (Memory.writeBytes a vs m) = true
  | [], _, _, _, hm => hm
  | v :: vs, a, m, h, hm => by
    simp only [List.length_cons] at h
    exact Memory.wf_writeBytes vs (a + 1) (by omega) (Memory.wf_write v (by omega) hm)

/-- The word-addressed form: one byte changes. -/
theorem State.readByte_writeByte {s : State} (hm : s.mem.wf = true) (a b : Word) (v : Byte) :
    (s.writeByte a v).readByte b = if a = b then v else s.readByte b := by
  have := Memory.read_write a.toNat b.toNat v hm
  simpa only [State.readByte, State.writeByte, ← BitVec.toNat_inj] using this

theorem State.wf_writeByte {s : State} (hm : s.mem.wf = true) (a : Word) (v : Byte) :
    (s.writeByte a v).mem.wf = true := Memory.wf_write v a.isLt hm

end Sys2Proof.Machine
end

