-- ==== Sys2Proof/Laws/State.lean ====
section
/-! SUPPORT. What each update of State leaves in each field, and the accessors over updates. -/

namespace Sys2Proof.Machine

@[simp] theorem State.retire_a (s : State) (len cost : Nat) : (s.retire len cost).a = s.a := rfl
@[simp] theorem State.retire_f (s : State) (len cost : Nat) : (s.retire len cost).f = s.f := rfl
@[simp] theorem State.retire_b (s : State) (len cost : Nat) : (s.retire len cost).b = s.b := rfl
@[simp] theorem State.retire_c (s : State) (len cost : Nat) : (s.retire len cost).c = s.c := rfl
@[simp] theorem State.retire_d (s : State) (len cost : Nat) : (s.retire len cost).d = s.d := rfl
@[simp] theorem State.retire_e (s : State) (len cost : Nat) : (s.retire len cost).e = s.e := rfl
@[simp] theorem State.retire_h (s : State) (len cost : Nat) : (s.retire len cost).h = s.h := rfl
@[simp] theorem State.retire_l (s : State) (len cost : Nat) : (s.retire len cost).l = s.l := rfl
@[simp] theorem State.retire_sp (s : State) (len cost : Nat) : (s.retire len cost).sp = s.sp := rfl
@[simp] theorem State.retire_pc (s : State) (len cost : Nat) : (s.retire len cost).pc = s.pc + BitVec.ofNat 16 len := rfl
@[simp] theorem State.retire_mem (s : State) (len cost : Nat) : (s.retire len cost).mem = s.mem := rfl
@[simp] theorem State.retire_runState (s : State) (len cost : Nat) : (s.retire len cost).runState = s.runState := rfl
@[simp] theorem State.retire_frameCycles (s : State) (len cost : Nat) : (s.retire len cost).frameCycles = s.frameCycles + cost := rfl
@[simp] theorem State.retire_cfg (s : State) (len cost : Nat) : (s.retire len cost).cfg = s.cfg := rfl

@[simp] theorem State.jumpTo_a (s : State) (p : Word) (cost : Nat) : (s.jumpTo p cost).a = s.a := rfl
@[simp] theorem State.jumpTo_f (s : State) (p : Word) (cost : Nat) : (s.jumpTo p cost).f = s.f := rfl
@[simp] theorem State.jumpTo_b (s : State) (p : Word) (cost : Nat) : (s.jumpTo p cost).b = s.b := rfl
@[simp] theorem State.jumpTo_c (s : State) (p : Word) (cost : Nat) : (s.jumpTo p cost).c = s.c := rfl
@[simp] theorem State.jumpTo_d (s : State) (p : Word) (cost : Nat) : (s.jumpTo p cost).d = s.d := rfl
@[simp] theorem State.jumpTo_e (s : State) (p : Word) (cost : Nat) : (s.jumpTo p cost).e = s.e := rfl
@[simp] theorem State.jumpTo_h (s : State) (p : Word) (cost : Nat) : (s.jumpTo p cost).h = s.h := rfl
@[simp] theorem State.jumpTo_l (s : State) (p : Word) (cost : Nat) : (s.jumpTo p cost).l = s.l := rfl
@[simp] theorem State.jumpTo_sp (s : State) (p : Word) (cost : Nat) : (s.jumpTo p cost).sp = s.sp := rfl
@[simp] theorem State.jumpTo_pc (s : State) (p : Word) (cost : Nat) : (s.jumpTo p cost).pc = p := rfl
@[simp] theorem State.jumpTo_mem (s : State) (p : Word) (cost : Nat) : (s.jumpTo p cost).mem = s.mem := rfl
@[simp] theorem State.jumpTo_runState (s : State) (p : Word) (cost : Nat) : (s.jumpTo p cost).runState = s.runState := rfl
@[simp] theorem State.jumpTo_frameCycles (s : State) (p : Word) (cost : Nat) : (s.jumpTo p cost).frameCycles = s.frameCycles + cost := rfl
@[simp] theorem State.jumpTo_cfg (s : State) (p : Word) (cost : Nat) : (s.jumpTo p cost).cfg = s.cfg := rfl

@[simp] theorem State.halt_a (s : State)  : (s.halt).a = s.a := rfl
@[simp] theorem State.halt_f (s : State)  : (s.halt).f = s.f := rfl
@[simp] theorem State.halt_b (s : State)  : (s.halt).b = s.b := rfl
@[simp] theorem State.halt_c (s : State)  : (s.halt).c = s.c := rfl
@[simp] theorem State.halt_d (s : State)  : (s.halt).d = s.d := rfl
@[simp] theorem State.halt_e (s : State)  : (s.halt).e = s.e := rfl
@[simp] theorem State.halt_h (s : State)  : (s.halt).h = s.h := rfl
@[simp] theorem State.halt_l (s : State)  : (s.halt).l = s.l := rfl
@[simp] theorem State.halt_sp (s : State)  : (s.halt).sp = s.sp := rfl
@[simp] theorem State.halt_pc (s : State)  : (s.halt).pc = s.pc := rfl
@[simp] theorem State.halt_mem (s : State)  : (s.halt).mem = s.mem := rfl
@[simp] theorem State.halt_runState (s : State)  : (s.halt).runState = .halted := rfl
@[simp] theorem State.halt_frameCycles (s : State)  : (s.halt).frameCycles = s.frameCycles := rfl
@[simp] theorem State.halt_cfg (s : State)  : (s.halt).cfg = s.cfg := rfl

@[simp] theorem State.setFlag_a (s : State) (k : Flag) (v : Bool) : (s.setFlag k v).a = s.a := rfl
@[simp] theorem State.setFlag_f (s : State) (k : Flag) (v : Bool) : (s.setFlag k v).f = putFlag s.f k v := rfl
@[simp] theorem State.setFlag_b (s : State) (k : Flag) (v : Bool) : (s.setFlag k v).b = s.b := rfl
@[simp] theorem State.setFlag_c (s : State) (k : Flag) (v : Bool) : (s.setFlag k v).c = s.c := rfl
@[simp] theorem State.setFlag_d (s : State) (k : Flag) (v : Bool) : (s.setFlag k v).d = s.d := rfl
@[simp] theorem State.setFlag_e (s : State) (k : Flag) (v : Bool) : (s.setFlag k v).e = s.e := rfl
@[simp] theorem State.setFlag_h (s : State) (k : Flag) (v : Bool) : (s.setFlag k v).h = s.h := rfl
@[simp] theorem State.setFlag_l (s : State) (k : Flag) (v : Bool) : (s.setFlag k v).l = s.l := rfl
@[simp] theorem State.setFlag_sp (s : State) (k : Flag) (v : Bool) : (s.setFlag k v).sp = s.sp := rfl
@[simp] theorem State.setFlag_pc (s : State) (k : Flag) (v : Bool) : (s.setFlag k v).pc = s.pc := rfl
@[simp] theorem State.setFlag_mem (s : State) (k : Flag) (v : Bool) : (s.setFlag k v).mem = s.mem := rfl
@[simp] theorem State.setFlag_runState (s : State) (k : Flag) (v : Bool) : (s.setFlag k v).runState = s.runState := rfl
@[simp] theorem State.setFlag_frameCycles (s : State) (k : Flag) (v : Bool) : (s.setFlag k v).frameCycles = s.frameCycles := rfl
@[simp] theorem State.setFlag_cfg (s : State) (k : Flag) (v : Bool) : (s.setFlag k v).cfg = s.cfg := rfl

@[simp] theorem State.writeByte_a (s : State) (p : Word) (v : Byte) : (s.writeByte p v).a = s.a := rfl
@[simp] theorem State.writeByte_f (s : State) (p : Word) (v : Byte) : (s.writeByte p v).f = s.f := rfl
@[simp] theorem State.writeByte_b (s : State) (p : Word) (v : Byte) : (s.writeByte p v).b = s.b := rfl
@[simp] theorem State.writeByte_c (s : State) (p : Word) (v : Byte) : (s.writeByte p v).c = s.c := rfl
@[simp] theorem State.writeByte_d (s : State) (p : Word) (v : Byte) : (s.writeByte p v).d = s.d := rfl
@[simp] theorem State.writeByte_e (s : State) (p : Word) (v : Byte) : (s.writeByte p v).e = s.e := rfl
@[simp] theorem State.writeByte_h (s : State) (p : Word) (v : Byte) : (s.writeByte p v).h = s.h := rfl
@[simp] theorem State.writeByte_l (s : State) (p : Word) (v : Byte) : (s.writeByte p v).l = s.l := rfl
@[simp] theorem State.writeByte_sp (s : State) (p : Word) (v : Byte) : (s.writeByte p v).sp = s.sp := rfl
@[simp] theorem State.writeByte_pc (s : State) (p : Word) (v : Byte) : (s.writeByte p v).pc = s.pc := rfl
@[simp] theorem State.writeByte_mem (s : State) (p : Word) (v : Byte) : (s.writeByte p v).mem = Memory.write p.toNat v s.mem := rfl
@[simp] theorem State.writeByte_runState (s : State) (p : Word) (v : Byte) : (s.writeByte p v).runState = s.runState := rfl
@[simp] theorem State.writeByte_frameCycles (s : State) (p : Word) (v : Byte) : (s.writeByte p v).frameCycles = s.frameCycles := rfl
@[simp] theorem State.writeByte_cfg (s : State) (p : Word) (v : Byte) : (s.writeByte p v).cfg = s.cfg := rfl

@[simp] theorem State.setR8_sp (s : State) (r : Reg8) (v : Byte) : (s.setR8 r v).sp = s.sp := by cases r <;> rfl
@[simp] theorem State.setR8_pc (s : State) (r : Reg8) (v : Byte) : (s.setR8 r v).pc = s.pc := by cases r <;> rfl
@[simp] theorem State.setR8_mem (s : State) (r : Reg8) (v : Byte) : (s.setR8 r v).mem = s.mem := by cases r <;> rfl
@[simp] theorem State.setR8_runState (s : State) (r : Reg8) (v : Byte) : (s.setR8 r v).runState = s.runState := by cases r <;> rfl
@[simp] theorem State.setR8_frameCycles (s : State) (r : Reg8) (v : Byte) : (s.setR8 r v).frameCycles = s.frameCycles := by cases r <;> rfl
@[simp] theorem State.setR8_cfg (s : State) (r : Reg8) (v : Byte) : (s.setR8 r v).cfg = s.cfg := by cases r <;> rfl

@[simp] theorem State.setR16_a (s : State) (r : Reg16) (v : Word) : (s.setR16 r v).a = s.a := by cases r <;> rfl
@[simp] theorem State.setR16_f (s : State) (r : Reg16) (v : Word) : (s.setR16 r v).f = s.f := by cases r <;> rfl
@[simp] theorem State.setR16_pc (s : State) (r : Reg16) (v : Word) : (s.setR16 r v).pc = s.pc := by cases r <;> rfl
@[simp] theorem State.setR16_mem (s : State) (r : Reg16) (v : Word) : (s.setR16 r v).mem = s.mem := by cases r <;> rfl
@[simp] theorem State.setR16_runState (s : State) (r : Reg16) (v : Word) : (s.setR16 r v).runState = s.runState := by cases r <;> rfl
@[simp] theorem State.setR16_frameCycles (s : State) (r : Reg16) (v : Word) : (s.setR16 r v).frameCycles = s.frameCycles := by cases r <;> rfl
@[simp] theorem State.setR16_cfg (s : State) (r : Reg16) (v : Word) : (s.setR16 r v).cfg = s.cfg := by cases r <;> rfl

theorem State.r8_setR8 (s : State) (r q : Reg8) (v : Byte) :
    (s.setR8 r v).r8 q = if q = r then v else s.r8 q := by
  cases r <;> cases q <;> rfl

theorem State.r16_setR16_same (s : State) (r : Reg16) (v : Word) : (s.setR16 r v).r16 r = v := by
  cases r <;> simp [State.setR16, State.r16]

@[simp] theorem State.r8_retire (s : State) (len cost : Nat) (q : Reg8) : (s.retire len cost).r8 q = s.r8 q := by
  cases q <;> rfl

@[simp] theorem State.r8_jumpTo (s : State) (p : Word) (cost : Nat) (q : Reg8) : (s.jumpTo p cost).r8 q = s.r8 q := by
  cases q <;> rfl

@[simp] theorem State.r8_halt (s : State) (q : Reg8) : s.halt.r8 q = s.r8 q := by
  cases q <;> rfl

@[simp] theorem State.r8_writeByte (s : State) (p : Word) (v : Byte) (q : Reg8) : (s.writeByte p v).r8 q = s.r8 q := by
  cases q <;> rfl

@[simp] theorem State.r16_retire (s : State) (len cost : Nat) (q : Reg16) : (s.retire len cost).r16 q = s.r16 q := by
  cases q <;> rfl

@[simp] theorem State.readByte_retire (s : State) (len cost : Nat) (p : Word) :
    (s.retire len cost).readByte p = s.readByte p := rfl

@[simp] theorem State.readByte_jumpTo (s : State) (q : Word) (cost : Nat) (p : Word) :
    (s.jumpTo q cost).readByte p = s.readByte p := rfl

@[simp] theorem State.readByte_halt (s : State) (p : Word) : s.halt.readByte p = s.readByte p := rfl

@[simp] theorem State.readByte_setR8 (s : State) (r : Reg8) (v : Byte) (p : Word) :
    (s.setR8 r v).readByte p = s.readByte p := by cases r <;> rfl

@[simp] theorem State.readByte_setR16 (s : State) (r : Reg16) (v : Word) (p : Word) :
    (s.setR16 r v).readByte p = s.readByte p := by cases r <;> rfl

end Sys2Proof.Machine
end

