-- ==== Sys2Proof/Laws/Meanings.lean ====
section
/-! SUPPORT. What each shared operation does, once: the registers and flags it gives, and what it leaves alone. -/

namespace Sys2Proof.Machine

/-- What no instruction but HALT touches: the run state and the configuration. -/
def SameEngine (s t : State) : Prop := t.runState = s.runState ∧ t.cfg = s.cfg

/-- The byte registers that are halves of a 16-bit operand. -/
def halvesOf : Reg16 → List Reg8
  | .bc => [.b, .c]
  | .de => [.d, .e]
  | .hl => [.h, .l]
  | .sp => []

theorem State.loadImm16_effect (s : State) (r : Reg16) (v : Word) :
    (s.loadImm16 r v).r16 r = v ∧ (∀ q, q ∉ halvesOf r → (s.loadImm16 r v).r8 q = s.r8 q) ∧
      (r ≠ .sp → (s.loadImm16 r v).sp = s.sp) ∧ (s.loadImm16 r v).mem = s.mem ∧ SameEngine s (s.loadImm16 r v) := by
  refine ⟨by simp [State.loadImm16, State.r16_setR16_same], ?_, ?_, by simp [State.loadImm16],
    by simp [SameEngine, State.loadImm16]⟩
  · intro q; cases r <;> cases q <;> simp [halvesOf, State.loadImm16, State.r8, State.setR16]
  · intro h; cases r <;> simp_all [State.loadImm16, State.setR16]

theorem State.loadImm8_effect (s : State) (r : Reg8) (v : Byte) :
    (s.loadImm8 r v).r8 r = v ∧ (∀ q, q ≠ r → (s.loadImm8 r v).r8 q = s.r8 q) ∧ (s.loadImm8 r v).sp = s.sp ∧
      (s.loadImm8 r v).mem = s.mem ∧ SameEngine s (s.loadImm8 r v) := by
  refine ⟨by simp [State.loadImm8, State.r8_setR8], ?_, by simp [State.loadImm8], by simp [State.loadImm8],
    by simp [SameEngine, State.loadImm8]⟩
  intro q h; simp [State.loadImm8, State.r8_setR8, h]

theorem State.storeA_effect (s : State) (r : Reg16) :
    (∀ q, (s.storeA r).r8 q = s.r8 q) ∧ (s.storeA r).sp = s.sp ∧
      (s.storeA r).mem = Memory.write (s.r16 r).toNat s.a s.mem ∧ SameEngine s (s.storeA r) := by
  refine ⟨by simp [State.storeA, State.storeIndirect], rfl, rfl, rfl, rfl⟩

theorem State.loadA_effect (s : State) (r : Reg16) :
    (s.loadA r).a = s.readByte (s.r16 r) ∧ (∀ q, q ≠ .a → (s.loadA r).r8 q = s.r8 q) ∧ (s.loadA r).sp = s.sp ∧
      (s.loadA r).mem = s.mem ∧ SameEngine s (s.loadA r) := by
  refine ⟨rfl, ?_, rfl, rfl, rfl, rfl⟩
  intro q h; simp [State.loadA, State.r8_setR8, h]

theorem State.storeSP_effect (s : State) (a16 : Word) :
    (∀ q, (s.storeSP a16).r8 q = s.r8 q) ∧ (s.storeSP a16).sp = s.sp ∧
      (s.storeSP a16).mem =
        Memory.write (a16 + 1).toNat (hiByte s.sp) (Memory.write a16.toNat (loByte s.sp) s.mem) ∧
      SameEngine s (s.storeSP a16) := by
  refine ⟨by simp [State.storeSP, State.storeAbsolute, State.writeWord], rfl, rfl, rfl, rfl⟩

theorem State.incR8_effect (s : State) (r : Reg8) (hr : r ≠ .f) :
    (s.incR8 r).r8 r = s.r8 r + 1 ∧ (s.incR8 r).f = incFlags s.f (s.r8 r) ∧
      (∀ q, q ≠ r → q ≠ .f → (s.incR8 r).r8 q = s.r8 q) ∧ (s.incR8 r).sp = s.sp ∧ (s.incR8 r).mem = s.mem ∧
      SameEngine s (s.incR8 r) := by
  refine ⟨by simp [State.incR8, State.r8_setR8], ?_, ?_, by simp [State.incR8], by simp [State.incR8],
    by simp [SameEngine, State.incR8]⟩
  · cases r <;> first | rfl | exact absurd rfl hr
  · intro q h hf; cases r <;> cases q <;> first | rfl | exact absurd rfl h | exact absurd rfl hf

theorem State.decR8_effect (s : State) (r : Reg8) (hr : r ≠ .f) :
    (s.decR8 r).r8 r = s.r8 r - 1 ∧ (s.decR8 r).f = decFlags s.f (s.r8 r) ∧
      (∀ q, q ≠ r → q ≠ .f → (s.decR8 r).r8 q = s.r8 q) ∧ (s.decR8 r).sp = s.sp ∧ (s.decR8 r).mem = s.mem ∧
      SameEngine s (s.decR8 r) := by
  refine ⟨by simp [State.decR8, State.r8_setR8], ?_, ?_, by simp [State.decR8], by simp [State.decR8],
    by simp [SameEngine, State.decR8]⟩
  · cases r <;> first | rfl | exact absurd rfl hr
  · intro q h hf; cases r <;> cases q <;> first | rfl | exact absurd rfl h | exact absurd rfl hf

theorem State.incR16_effect (s : State) (r : Reg16) :
    (s.incR16 r).r16 r = s.r16 r + 1 ∧ (∀ q, q ∉ halvesOf r → (s.incR16 r).r8 q = s.r8 q) ∧
      (r ≠ .sp → (s.incR16 r).sp = s.sp) ∧ (s.incR16 r).mem = s.mem ∧ SameEngine s (s.incR16 r) := by
  refine ⟨by simp [State.incR16, State.r16_setR16_same], ?_, ?_, by simp [State.incR16],
    by simp [SameEngine, State.incR16]⟩
  · intro q; cases r <;> cases q <;> simp [halvesOf, State.incR16, State.r8, State.setR16]
  · intro h; cases r <;> simp_all [State.incR16, State.setR16]

theorem State.decR16_effect (s : State) (r : Reg16) :
    (s.decR16 r).r16 r = s.r16 r - 1 ∧ (∀ q, q ∉ halvesOf r → (s.decR16 r).r8 q = s.r8 q) ∧
      (r ≠ .sp → (s.decR16 r).sp = s.sp) ∧ (s.decR16 r).mem = s.mem ∧ SameEngine s (s.decR16 r) := by
  refine ⟨by simp [State.decR16, State.r16_setR16_same], ?_, ?_, by simp [State.decR16],
    by simp [SameEngine, State.decR16]⟩
  · intro q; cases r <;> cases q <;> simp [halvesOf, State.decR16, State.r8, State.setR16]
  · intro h; cases r <;> simp_all [State.decR16, State.setR16]

theorem State.addHL_effect (s : State) (r : Reg16) :
    (s.addHL r).r16 .hl = s.r16 .hl + s.r16 r ∧ (s.addHL r).f = addFlags16 s.f (s.r16 .hl) (s.r16 r) ∧
      (∀ q, q ≠ .h → q ≠ .l → q ≠ .f → (s.addHL r).r8 q = s.r8 q) ∧ (s.addHL r).sp = s.sp ∧
      (s.addHL r).mem = s.mem ∧ SameEngine s (s.addHL r) := by
  refine ⟨by simp [State.addHL, State.r16_setR16_same], rfl, ?_, rfl, rfl, rfl, rfl⟩
  intro q hh hl hf; cases q <;> first | rfl | exact absurd rfl hh | exact absurd rfl hl | exact absurd rfl hf

/-- A jump moves PC and adds its cost; nothing else changes. -/
theorem State.jumpIf_effect (s : State) (cc : Cond) (e8 : Byte) :
    s.jumpIf cc e8 =
      { s with
        pc := if condHolds s.f cc then jumpTarget s.pc e8 else s.pc + 2
        frameCycles := s.frameCycles + if condHolds s.f cc then 12 else 8 } := by
  unfold State.jumpIf
  split <;> rfl

end Sys2Proof.Machine
end

