-- ==== Sys2Proof/Laws/PerInstr.lean ====
section
/-! SUPPORT. Facts about every instruction as syntax, one lemma per constructor. -/

namespace Sys2Proof.Laws

/-- An instruction of `n` operand bytes is `n + 1` bytes long: the bytes the encoder writes after the opcode are those
its format counts (30_encoding.md R60, R61). -/
def EncodedLength.Statement (i : Instr) : Prop := i.operandBytes.length + 1 = i.length

theorem EncodedLength.nop : EncodedLength.Statement .nop := rfl
theorem EncodedLength.stop (v : Byte) : EncodedLength.Statement (.stop v) := rfl
theorem EncodedLength.halt : EncodedLength.Statement .halt := rfl
theorem EncodedLength.ldBCd16 (v : Word) : EncodedLength.Statement (.ldBCd16 v) := rfl
theorem EncodedLength.ldDEd16 (v : Word) : EncodedLength.Statement (.ldDEd16 v) := rfl
theorem EncodedLength.ldHLd16 (v : Word) : EncodedLength.Statement (.ldHLd16 v) := rfl
theorem EncodedLength.ldSPd16 (v : Word) : EncodedLength.Statement (.ldSPd16 v) := rfl
theorem EncodedLength.ldBd8 (v : Byte) : EncodedLength.Statement (.ldBd8 v) := rfl
theorem EncodedLength.ldCd8 (v : Byte) : EncodedLength.Statement (.ldCd8 v) := rfl
theorem EncodedLength.ldDd8 (v : Byte) : EncodedLength.Statement (.ldDd8 v) := rfl
theorem EncodedLength.ldEd8 (v : Byte) : EncodedLength.Statement (.ldEd8 v) := rfl
theorem EncodedLength.ldHd8 (v : Byte) : EncodedLength.Statement (.ldHd8 v) := rfl
theorem EncodedLength.ldLd8 (v : Byte) : EncodedLength.Statement (.ldLd8 v) := rfl
theorem EncodedLength.ldAd8 (v : Byte) : EncodedLength.Statement (.ldAd8 v) := rfl
theorem EncodedLength.ldAtBCA : EncodedLength.Statement .ldAtBCA := rfl
theorem EncodedLength.ldAtDEA : EncodedLength.Statement .ldAtDEA := rfl
theorem EncodedLength.ldAtHLA : EncodedLength.Statement .ldAtHLA := rfl
theorem EncodedLength.ldAAtBC : EncodedLength.Statement .ldAAtBC := rfl
theorem EncodedLength.ldAAtDE : EncodedLength.Statement .ldAAtDE := rfl
theorem EncodedLength.ldAAtHL : EncodedLength.Statement .ldAAtHL := rfl
theorem EncodedLength.ldAtA16SP (v : Word) : EncodedLength.Statement (.ldAtA16SP v) := rfl
theorem EncodedLength.incB : EncodedLength.Statement .incB := rfl
theorem EncodedLength.incC : EncodedLength.Statement .incC := rfl
theorem EncodedLength.incD : EncodedLength.Statement .incD := rfl
theorem EncodedLength.incE : EncodedLength.Statement .incE := rfl
theorem EncodedLength.incH : EncodedLength.Statement .incH := rfl
theorem EncodedLength.incL : EncodedLength.Statement .incL := rfl
theorem EncodedLength.incA : EncodedLength.Statement .incA := rfl
theorem EncodedLength.decB : EncodedLength.Statement .decB := rfl
theorem EncodedLength.decC : EncodedLength.Statement .decC := rfl
theorem EncodedLength.decD : EncodedLength.Statement .decD := rfl
theorem EncodedLength.decE : EncodedLength.Statement .decE := rfl
theorem EncodedLength.decH : EncodedLength.Statement .decH := rfl
theorem EncodedLength.decL : EncodedLength.Statement .decL := rfl
theorem EncodedLength.decA : EncodedLength.Statement .decA := rfl
theorem EncodedLength.rlca : EncodedLength.Statement .rlca := rfl
theorem EncodedLength.xorA : EncodedLength.Statement .xorA := rfl
theorem EncodedLength.incBC : EncodedLength.Statement .incBC := rfl
theorem EncodedLength.incDE : EncodedLength.Statement .incDE := rfl
theorem EncodedLength.incHL : EncodedLength.Statement .incHL := rfl
theorem EncodedLength.incSP : EncodedLength.Statement .incSP := rfl
theorem EncodedLength.decBC : EncodedLength.Statement .decBC := rfl
theorem EncodedLength.decDE : EncodedLength.Statement .decDE := rfl
theorem EncodedLength.decHL : EncodedLength.Statement .decHL := rfl
theorem EncodedLength.decSP : EncodedLength.Statement .decSP := rfl
theorem EncodedLength.addHLBC : EncodedLength.Statement .addHLBC := rfl
theorem EncodedLength.addHLDE : EncodedLength.Statement .addHLDE := rfl
theorem EncodedLength.addHLHL : EncodedLength.Statement .addHLHL := rfl
theorem EncodedLength.addHLSP : EncodedLength.Statement .addHLSP := rfl
theorem EncodedLength.jrNZ (v : Byte) : EncodedLength.Statement (.jrNZ v) := rfl
theorem EncodedLength.jrZ (v : Byte) : EncodedLength.Statement (.jrZ v) := rfl
theorem EncodedLength.jrNC (v : Byte) : EncodedLength.Statement (.jrNC v) := rfl
theorem EncodedLength.jrC (v : Byte) : EncodedLength.Statement (.jrC v) := rfl
theorem EncodedLength.jr (v : Byte) : EncodedLength.Statement (.jr v) := rfl

end Sys2Proof.Laws
end

