-- ==== Sys2Proof/Laws/Step.lean ====
section
/-! SUPPORT. What a step can do, once. -/

namespace Sys2Proof.Machine

/-- Nothing is fetched exactly where the opcode byte has no handler. -/
theorem State.fetch_eq_none_iff (s : State) : s.fetch = none ↔ s.cfg.decodeByte s.opcode = none := by
  cases h : s.cfg.decodeByte s.opcode with
  | none => simp [State.fetch, State.fetchBytes, decode, h]
  | some op =>
    obtain ⟨i, rest, e⟩ := takeOperands_of_two op (s.readByte (s.pc + 1)) (s.readByte (s.pc + 2))
    simp only [State.fetch, State.fetchBytes, decode, h, e, reduceCtorEq]

theorem step_of_halted {s : State} (h : s.runState = .halted) : step s = .next s := by
  simp [step, h]

theorem step_of_fetch {s : State} {i : Instr} (h : s.runState = .running) (hi : s.fetch = some i) :
    step s = exec i s := by
  simp [step, h, hi]

theorem step_of_no_fetch {s : State} (h : s.runState = .running) (hi : s.fetch = none) :
    step s = .fault (.decodeFault s.opcode s.pc) := by
  simp [step, h, hi]

/-- Where a step answers a next state: the engine is Halted and the state is the same, or it is Running and the fetched
instruction ran. -/
theorem step_next_cases {s t : State} (h : step s = .next t) :
    (s.runState = .halted ∧ t = s) ∨ (s.runState = .running ∧ ∃ i, s.fetch = some i ∧ exec i s = .next t) := by
  cases hr : s.runState with
  | halted =>
    rw [step_of_halted hr] at h
    injection h with e
    exact .inl ⟨rfl, e.symm⟩
  | running =>
    cases hf : s.fetch with
    | none => rw [step_of_no_fetch hr hf] at h; cases h
    | some i => exact .inr ⟨rfl, i, rfl, by rw [← step_of_fetch hr hf, h]⟩

end Sys2Proof.Machine
end

