-- ==== Sys2Proof/Laws/Run.lean ====
section
/-! SUPPORT. Runs of several steps, one step at a time. -/

namespace Sys2Proof.Machine

theorem steps_zero (s t : State) : Steps 0 s t ↔ t = s := by
  simp [Steps, runSteps, eq_comm]

/-- A run of `n + 1` steps is a step that answers a next state, then a run of `n`. -/
theorem steps_succ (n : Nat) (s t : State) : Steps (n + 1) s t ↔ ∃ u, step s = .next u ∧ Steps n u t := by
  unfold Steps
  rw [runSteps]
  cases step s <;> simp

/-- A host's single step that completes leaves the step's state. -/
theorem State.hostStep_of_next {s t : State} (h : step s = .next t) : s.hostStep = t := by
  simp [State.hostStep, h]

/-- A host's single step that faults leaves the engine Halted and changes nothing else. -/
theorem State.hostStep_of_fault {s : State} {r : Fault} (h : step s = .fault r) :
    s.hostStep = { s with runState := .halted } := by
  simp [State.hostStep, h, State.takeFault, State.halt]

theorem State.hostStep_of_halted {s : State} (h : s.runState = .halted) : s.hostStep = s :=
  State.hostStep_of_next (step_of_halted h)

end Sys2Proof.Machine
end

