-- ==== Sys2Proof/Tests/Slice0.lean ====
section
/-! SUPPORT. The model's own tests. Expected values come from the spec: the words of 30_encoding.md R66 and the vectors
of 95_test_vectors.md, whose numbers the tests name. The last part shows, for every obligation with hypotheses, states
and operands that meet them. -/

namespace Sys2Proof.Tests

open Sys2Proof Sys2Proof.Machine Sys2Proof.Claims

/-- The reset state with code at an address and PC there. -/
def start (pc : Word) (code : List Byte) : State :=
  { State.create Config.default with pc := pc, mem := Memory.writeBytes pc.toNat code [] }

/-- The state after one step; the same state where there is none. -/
def after (s : State) : State :=
  match step s with
  | .next t => t
  | _ => s

/-- The same state under another budget. -/
def budgeted (budget : Nat) (s : State) : State := withBudget s budget

/-! ## Well-formedness: each check refuses an ill-formed term -/

theorem test_wf_default : Config.default.wf = true := by decide

theorem test_wf_refuses_budget_zero : Config.wf { Config.default with budget := 0 } = false := by decide

theorem test_wf_refuses_two_rows_for_a_byte :
    OpcodeMap.distinct [(0x00, .nop), (0x04, .incB), (0x00, .stop)] = false ∧
    Config.wf { Config.default with opcodeMap := (0x76, .nop) :: defaultOpcodeMap } = false := by decide

theorem test_wf_refuses_halt_on_another_row :
    Config.haltFree { Config.default with haltOpcode := some 0x00 } = false ∧
    Config.wf { Config.default with haltOpcode := some 0x00 } = false := by decide

theorem test_wf_refuses_unnamed_instructions :
    Instr.wf { Config.default with haltOpcode := none } .halt = false ∧
    Instr.wf { Config.default with opcodeMap := opcodeRow0 } (.jr 0x05) = false ∧
    Instr.wf Config.default (.jr 0x05) = true := by decide

/-! ## Decoding: the words of 30_encoding.md R66, opcode bytes in binary as its table has them -/

theorem test_decode_control :
    decode Config.default [0b00000000] = .ok (.nop, []) ∧
    decode Config.default [0b00010000, 0xD3] = .ok (.stop 0xD3, []) ∧
    decode Config.default [0b01110110] = .ok (.halt, []) := by decide

theorem test_decode_load_word :
    decode Config.default [0b00000001, 0x34, 0x12] = .ok (.ldBCd16 0x1234, []) ∧
    decode Config.default [0b00010001, 0x00, 0x80] = .ok (.ldDEd16 0x8000, []) ∧
    decode Config.default [0b00100001, 0xCD, 0xAB] = .ok (.ldHLd16 0xABCD, []) ∧
    decode Config.default [0b00110001, 0xFE, 0xFF] = .ok (.ldSPd16 0xFFFE, []) := by decide

theorem test_decode_load_byte :
    decode Config.default [0b00000110, 0xA0] = .ok (.ldBd8 0xA0, []) ∧
    decode Config.default [0b00001110, 0xA1] = .ok (.ldCd8 0xA1, []) ∧
    decode Config.default [0b00010110, 0xA2] = .ok (.ldDd8 0xA2, []) ∧
    decode Config.default [0b00011110, 0xA3] = .ok (.ldEd8 0xA3, []) ∧
    decode Config.default [0b00100110, 0xA4] = .ok (.ldHd8 0xA4, []) ∧
    decode Config.default [0b00101110, 0xA5] = .ok (.ldLd8 0xA5, []) ∧
    decode Config.default [0b00111110, 0xA6] = .ok (.ldAd8 0xA6, []) := by decide

theorem test_decode_memory :
    decode Config.default [0b00000010] = .ok (.ldAtBCA, []) ∧
    decode Config.default [0b00010010] = .ok (.ldAtDEA, []) ∧
    decode Config.default [0b01110111] = .ok (.ldAtHLA, []) ∧
    decode Config.default [0b00001010] = .ok (.ldAAtBC, []) ∧
    decode Config.default [0b00011010] = .ok (.ldAAtDE, []) ∧
    decode Config.default [0b01111110] = .ok (.ldAAtHL, []) ∧
    decode Config.default [0b00001000, 0x00, 0xC1] = .ok (.ldAtA16SP 0xC100, []) := by decide

theorem test_decode_inc_byte :
    decode Config.default [0b00000100] = .ok (.incB, []) ∧
    decode Config.default [0b00001100] = .ok (.incC, []) ∧
    decode Config.default [0b00010100] = .ok (.incD, []) ∧
    decode Config.default [0b00011100] = .ok (.incE, []) ∧
    decode Config.default [0b00100100] = .ok (.incH, []) ∧
    decode Config.default [0b00101100] = .ok (.incL, []) ∧
    decode Config.default [0b00111100] = .ok (.incA, []) := by decide

theorem test_decode_dec_byte :
    decode Config.default [0b00000101] = .ok (.decB, []) ∧
    decode Config.default [0b00001101] = .ok (.decC, []) ∧
    decode Config.default [0b00010101] = .ok (.decD, []) ∧
    decode Config.default [0b00011101] = .ok (.decE, []) ∧
    decode Config.default [0b00100101] = .ok (.decH, []) ∧
    decode Config.default [0b00101101] = .ok (.decL, []) ∧
    decode Config.default [0b00111101] = .ok (.decA, []) := by decide

theorem test_decode_rotate_xor :
    decode Config.default [0b00000111] = .ok (.rlca, []) ∧
    decode Config.default [0b10101111] = .ok (.xorA, []) := by decide

theorem test_decode_inc_dec_word :
    decode Config.default [0b00000011] = .ok (.incBC, []) ∧
    decode Config.default [0b00010011] = .ok (.incDE, []) ∧
    decode Config.default [0b00100011] = .ok (.incHL, []) ∧
    decode Config.default [0b00110011] = .ok (.incSP, []) ∧
    decode Config.default [0b00001011] = .ok (.decBC, []) ∧
    decode Config.default [0b00011011] = .ok (.decDE, []) ∧
    decode Config.default [0b00101011] = .ok (.decHL, []) ∧
    decode Config.default [0b00111011] = .ok (.decSP, []) := by decide

theorem test_decode_add_hl :
    decode Config.default [0b00001001] = .ok (.addHLBC, []) ∧
    decode Config.default [0b00011001] = .ok (.addHLDE, []) ∧
    decode Config.default [0b00101001] = .ok (.addHLHL, []) ∧
    decode Config.default [0b00111001] = .ok (.addHLSP, []) := by decide

theorem test_decode_jump :
    decode Config.default [0b00100000, 0xFD] = .ok (.jrNZ 0xFD, []) ∧
    decode Config.default [0b00101000, 0x05] = .ok (.jrZ 0x05, []) ∧
    decode Config.default [0b00110000, 0x7F] = .ok (.jrNC 0x7F, []) ∧
    decode Config.default [0b00111000, 0x80] = .ok (.jrC 0x80, []) ∧
    decode Config.default [0b00011000, 0xF9] = .ok (.jr 0xF9, []) := by decide

/-- Operand bytes are taken as they stand, what follows is returned, and a byte with no handler is rejected by name. -/
theorem test_decode_rest_and_rejection :
    decode Config.default [0x06, 0xD3, 0xD3] = .ok (.ldBd8 0xD3, [0xD3]) ∧
    decode Config.default [0xD3, 0x00] = .error (.unimplementedOpcode 0xD3) ∧
    decode Config.default [] = .error .noBytes ∧
    decode Config.default [0x01, 0x34] = .error (.missingOperand .ldBCd16) := by decide

/-- R66, R68 and 00_scope.md R9: 54 rows, 48 of them Tier S. -/
theorem test_map_counts :
    defaultOpcodeMap.length = 54 ∧ (OpcodeMap.tierS defaultOpcodeMap).length = 48 := by
  decide

/-- R232: 4194304 / 60 with the fraction dropped. -/
theorem test_default_budget : Config.default.budget = 4194304 / 60 := by decide

theorem test_encode :
    encode Config.default (.ldBCd16 0x1234) = some [0x01, 0x34, 0x12] ∧
    encode Config.default .halt = some [0x76] ∧
    encode { Config.default with haltOpcode := none } .halt = none := by decide

/-- R71: the distance from the address after the jump, from -128 to 127. -/
theorem test_assemble_displacement :
    assembleDisplacement 0x0003 0x0002 = some 0xFD ∧ assembleDisplacement 0x0100 0x0181 = some 0x7F ∧
    assembleDisplacement 0x0100 0x0082 = some 0x80 ∧ assembleDisplacement 0x0100 0x0182 = none ∧
    assembleDisplacement 0x0100 0x0081 = none := by decide

theorem test_decode_table_word :
    decodeTableWord 24 0x123401 = some (.ldBCd16 0x1234) ∧ decodeTableWord 8 0x04 = some .incB ∧
    decodeTableWord 8 0x06 = some (.ldBd8 0x00) ∧ decodeTableWord 8 0xD3 = none := by decide

theorem test_with_fetch_word :
    (State.reset.withFetchWord 24 0x123401).fetch = some (.ldBCd16 0x1234) ∧
    (after (State.reset.withFetchWord 16 0xA006)).b = 0xA0 := by decide

/-! ## Instructions: at most two vectors each -/

/-- V1.1: NOP keeps all of F. -/
theorem test_nop_keeps_all_of_f :
    let t := after { start 0x0000 [0x00] with f := 0xFF }
    (t.pc, t.f, t.frameCycles) = (0x0001, 0xFF, 4) := by decide

/-- V1.2: PC wraps. -/
theorem test_nop_pc_wraps :
    let t := after (start 0xFFFF [0x00])
    (t.pc, t.frameCycles) = (0x0000, 4) := by decide

/-- V1.4: second byte unmapped as an opcode, no fault. -/
theorem test_stop_second_byte_unmapped :
    let t := after (start 0x0100 [0x10, 0xD3])
    (t.pc, t.runState, t.frameCycles) = (0x0102, .running, 4) := by decide

/-- V1.5: STOP at 0xFFFF wraps to 0x0001. -/
theorem test_stop_pc_wraps :
    let t := after (start 0xFFFF [0x10, 0x00])
    (t.pc, t.frameCycles) = (0x0001, 4) := by decide

/-- V1.6: HALT advances PC, sets Halted. -/
theorem test_halt_advances_and_halts :
    let t := after { start 0x0006 [0x76] with f := 0x50 }
    (t.pc, t.f, t.runState, t.frameCycles) = (0x0007, 0x50, .halted, 4) := by decide

/-- V1.7: HALT at 0xFFFF. -/
theorem test_halt_pc_wraps :
    let t := after (start 0xFFFF [0x76])
    (t.pc, t.runState, t.frameCycles) = (0x0000, .halted, 4) := by decide

/-- V2.1: low byte first. -/
theorem test_ld_bc_low_byte_first :
    let t := after { start 0x0100 [0x01, 0xFF, 0x00] with f := 0xF0 }
    (t.b, t.c, t.pc, t.f, t.frameCycles) = (0x00, 0xFF, 0x0103, 0xF0, 12) := by decide

/-- V2.5: operands wrap to 0x0000, 0x0001. -/
theorem test_ld_bc_operands_wrap :
    let t := after ((((start 0xFFFF [0x01]).writeByte 0x0000 0x34).writeByte 0x0001 0x12))
    (t.r16 .bc, t.pc, t.frameCycles) = (0x1234, 0x0002, 12) := by decide

/-- V2.2: LD DE. -/
theorem test_ld_de :
    let t := after (start 0x0100 [0x11, 0x00, 0x80])
    (t.d, t.e, t.pc, t.frameCycles) = (0x80, 0x00, 0x0103, 12) := by decide

/-- V2.3: LD HL. -/
theorem test_ld_hl :
    let t := after (start 0x0100 [0x21, 0xCD, 0xAB])
    (t.h, t.l, t.pc, t.frameCycles) = (0xAB, 0xCD, 0x0103, 12) := by decide

/-- V2.6: high operand byte wraps to 0x0000. -/
theorem test_ld_hl_high_operand_wraps :
    let t := after ((start 0xFFFE [0x21, 0x34]).writeByte 0x0000 0x12)
    (t.r16 .hl, t.pc, t.frameCycles) = (0x1234, 0x0001, 12) := by decide

/-- V2.4: LD SP (Tier X). -/
theorem test_ld_sp :
    let t := after (start 0x0100 [0x31, 0xFE, 0xFF])
    (t.sp, t.pc, t.frameCycles) = (0xFFFE, 0x0103, 12) := by decide

/-- V2.7: LD B,d8. -/
theorem test_ld_b :
    let t := after { start 0x0100 [0x06, 0xA0] with f := 0x80 }
    (t.b, t.pc, t.f, t.frameCycles) = (0xA0, 0x0102, 0x80, 8) := by decide

/-- V2.15: d8 wraps to address 0x0000. -/
theorem test_ld_b_operand_wraps :
    let t := after ((start 0xFFFF [0x06]).writeByte 0x0000 0x77)
    (t.b, t.pc, t.frameCycles) = (0x77, 0x0001, 8) := by decide

/-- V2.8: LD C,d8. -/
theorem test_ld_c :
    let t := after { start 0x0100 [0x0E, 0xA1] with f := 0x80 }
    (t.c, t.pc, t.f, t.frameCycles) = (0xA1, 0x0102, 0x80, 8) := by decide

/-- V2.9: LD D,d8. -/
theorem test_ld_d :
    let t := after { start 0x0100 [0x16, 0xA2] with f := 0x80 }
    (t.d, t.pc, t.f, t.frameCycles) = (0xA2, 0x0102, 0x80, 8) := by decide

/-- V2.10: LD E,d8. -/
theorem test_ld_e :
    let t := after { start 0x0100 [0x1E, 0xA3] with f := 0x80 }
    (t.e, t.pc, t.f, t.frameCycles) = (0xA3, 0x0102, 0x80, 8) := by decide

/-- V2.11: LD H,d8. -/
theorem test_ld_h :
    let t := after { start 0x0100 [0x26, 0xA4] with f := 0x80 }
    (t.h, t.pc, t.f, t.frameCycles) = (0xA4, 0x0102, 0x80, 8) := by decide

/-- V2.12: LD L,d8. -/
theorem test_ld_l :
    let t := after { start 0x0100 [0x2E, 0xA5] with f := 0x80 }
    (t.l, t.pc, t.f, t.frameCycles) = (0xA5, 0x0102, 0x80, 8) := by decide

/-- V2.13: LD A,d8. -/
theorem test_ld_a :
    let t := after { start 0x0100 [0x3E, 0xA6] with f := 0x80 }
    (t.a, t.pc, t.f, t.frameCycles) = (0xA6, 0x0102, 0x80, 8) := by decide

/-- V2.14: loading 0 does not set Z. -/
theorem test_ld_a_zero_keeps_z :
    let t := after { start 0x0100 [0x3E, 0x00] with a := 0xFF, f := 0x00 }
    (t.a, t.f, t.pc, t.frameCycles) = (0x00, 0x00, 0x0102, 8) := by decide

/-- V2.16: LD (BC),A. -/
theorem test_ld_at_bc_a :
    let t := after { start 0x0100 [0x02] with a := 0x5A, b := 0xC0, c := 0x00 }
    (t.readByte 0xC000, t.r16 .bc, t.pc, t.frameCycles) = (0x5A, 0xC000, 0x0101, 8) := by decide

/-- V2.17: top address. -/
theorem test_ld_at_de_a_top :
    let t := after { start 0x0100 [0x12] with a := 0x5A, d := 0xFF, e := 0xFF }
    (t.readByte 0xFFFF, t.r16 .de, t.pc, t.frameCycles) = (0x5A, 0xFFFF, 0x0101, 8) := by decide

/-- V2.18: bottom address. -/
theorem test_ld_at_hl_a_bottom :
    let t := after { start 0x0100 [0x77] with a := 0x5A, h := 0x00, l := 0x00 }
    (t.readByte 0x0000, t.r16 .hl, t.pc, t.frameCycles) = (0x5A, 0x0000, 0x0101, 8) := by decide

/-- V2.20: store over the next opcode: next fetch sees HALT. -/
theorem test_ld_at_hl_a_next_opcode :
    let t := after { start 0x0100 [0x77] with a := 0x76, h := 0x01, l := 0x01 }
    (t.readByte 0x0101, t.pc, t.frameCycles) = (0x76, 0x0101, 8) := by decide

/-- V2.21: LD A,(BC). -/
theorem test_ld_a_at_bc :
    let t := after { (start 0x0100 [0x0A]).writeByte 0xC000 0x99 with b := 0xC0, c := 0x00 }
    (t.a, t.r16 .bc, t.pc, t.frameCycles) = (0x99, 0xC000, 0x0101, 8) := by decide

/-- V2.22: no sign effects, no flags. -/
theorem test_ld_a_at_de_top :
    let t := after { (start 0x0100 [0x1A]).writeByte 0xFFFF 0x80 with d := 0xFF, e := 0xFF, f := 0x00 }
    (t.a, t.f, t.pc, t.frameCycles) = (0x80, 0x00, 0x0101, 8) := by decide

/-- V2.23: reads own opcode. -/
theorem test_ld_a_at_hl_own_opcode :
    let t := after { start 0x0100 [0x7E] with h := 0x01, l := 0x00, a := 0x11 }
    (t.a, t.pc, t.frameCycles) = (0x7E, 0x0101, 8) := by decide

/-- V2.24: loading 0x00 leaves Z = 0. -/
theorem test_ld_a_at_hl_zero :
    let t := after { start 0x0100 [0x7E] with h := 0xC0, l := 0x00, a := 0x11, f := 0x00 }
    (t.a, t.f, t.pc, t.frameCycles) = (0x00, 0x00, 0x0101, 8) := by decide

/-- V2.26: second byte wraps to 0x0000. -/
theorem test_ld_at_a16_sp_wraps :
    let t := after { start 0x0100 [0x08, 0xFF, 0xFF] with sp := 0x1234 }
    (t.readByte 0xFFFF, t.readByte 0x0000, t.pc, t.frameCycles) = (0x34, 0x12, 0x0103, 20) := by decide

/-- V2.27: store over own operand bytes; address was read first. -/
theorem test_ld_at_a16_sp_own_operand :
    let t := after { start 0x0100 [0x08, 0x01, 0x01] with sp := 0xABCD }
    (t.readByte 0x0101, t.readByte 0x0102, t.pc, t.frameCycles) = (0xCD, 0xAB, 0x0103, 20) := by decide

/-- V3.2: INC B: half carry. -/
theorem test_inc_b_half_carry :
    let t := after { start 0x0100 [0x04] with b := 0x0F, f := 0x00 }
    (t.b, t.f, t.pc, t.frameCycles) = (0x10, 0x20, 0x0101, 4) := by decide

/-- V3.4: INC B: wrap: C stays 1. -/
theorem test_inc_b_wraps_keeps_c :
    let t := after { start 0x0100 [0x04] with b := 0xFF, f := 0x10 }
    (t.b, t.f, t.pc, t.frameCycles) = (0x00, 0xB0, 0x0101, 4) := by decide

/-- V3.5: INC C: INC C does not carry into B. -/
theorem test_inc_c_no_carry_into_b :
    let t := after { start 0x0100 [0x0C] with c := 0xFF, f := 0x00, b := 0x12 }
    (t.c, t.f, t.pc, t.r16 .bc, t.frameCycles) = (0x00, 0xA0, 0x0101, 0x1200, 4) := by decide

/-- V3.6: INC D: N cleared; no overflow flag. -/
theorem test_inc_d_clears_n :
    let t := after { start 0x0100 [0x14] with d := 0x7F, f := 0x40 }
    (t.d, t.f, t.pc, t.frameCycles) = (0x80, 0x20, 0x0101, 4) := by decide

/-- V3.7: INC E: Z cleared, F[3:0] kept. -/
theorem test_inc_e_keeps_low_f :
    let t := after { start 0x0100 [0x1C] with e := 0x1F, f := 0x8F }
    (t.e, t.f, t.pc, t.frameCycles) = (0x20, 0x2F, 0x0101, 4) := by decide

/-- V3.8: INC H: half carry from 0xEF. -/
theorem test_inc_h :
    let t := after { start 0x0100 [0x24] with h := 0xEF, f := 0x00 }
    (t.h, t.f, t.pc, t.frameCycles) = (0xF0, 0x20, 0x0101, 4) := by decide

/-- V3.9: INC L: INC L does not carry into H. -/
theorem test_inc_l_no_carry_into_h :
    let t := after { start 0x0100 [0x2C] with l := 0xFF, f := 0x00, h := 0x12 }
    (t.l, t.f, t.pc, t.r16 .hl, t.frameCycles) = (0x00, 0xA0, 0x0101, 0x1200, 4) := by decide

/-- V3.10: INC A: Z, N, H cleared, C kept. -/
theorem test_inc_a_keeps_c :
    let t := after { start 0x0100 [0x3C] with a := 0xFE, f := 0xF0 }
    (t.a, t.f, t.pc, t.frameCycles) = (0xFF, 0x10, 0x0101, 4) := by decide

/-- V3.11: DEC B: to zero: Z. -/
theorem test_dec_b_to_zero :
    let t := after { start 0x0100 [0x05] with b := 0x01, f := 0x00 }
    (t.b, t.f, t.pc, t.frameCycles) = (0x00, 0xC0, 0x0101, 4) := by decide

/-- V3.13: DEC B: wrap: C stays 1. -/
theorem test_dec_b_wraps_keeps_c :
    let t := after { start 0x0100 [0x05] with b := 0x00, f := 0x10 }
    (t.b, t.f, t.pc, t.frameCycles) = (0xFF, 0x70, 0x0101, 4) := by decide

/-- V3.14: DEC C: DEC C does not borrow from B. -/
theorem test_dec_c_no_borrow_from_b :
    let t := after { start 0x0100 [0x0D] with c := 0x00, f := 0x00, b := 0x12 }
    (t.c, t.f, t.pc, t.r16 .bc, t.frameCycles) = (0xFF, 0x60, 0x0101, 0x12FF, 4) := by decide

/-- V3.15: DEC D: half borrow. -/
theorem test_dec_d_half_borrow :
    let t := after { start 0x0100 [0x15] with d := 0x10, f := 0x00 }
    (t.d, t.f, t.pc, t.frameCycles) = (0x0F, 0x60, 0x0101, 4) := by decide

/-- V3.16: DEC E: 0x80 to 0x7F: H. -/
theorem test_dec_e :
    let t := after { start 0x0100 [0x1D] with e := 0x80, f := 0x00 }
    (t.e, t.f, t.pc, t.frameCycles) = (0x7F, 0x60, 0x0101, 4) := by decide

/-- V3.17: DEC H: Z cleared, F[3:0] kept. -/
theorem test_dec_h_keeps_low_f :
    let t := after { start 0x0100 [0x25] with h := 0x02, f := 0x8F }
    (t.h, t.f, t.pc, t.frameCycles) = (0x01, 0x4F, 0x0101, 4) := by decide

/-- V3.18: DEC L: H cleared. -/
theorem test_dec_l_clears_h :
    let t := after { start 0x0100 [0x2D] with l := 0x11, f := 0x20 }
    (t.l, t.f, t.pc, t.frameCycles) = (0x10, 0x40, 0x0101, 4) := by decide

/-- V3.19: DEC A: plain. -/
theorem test_dec_a :
    let t := after { start 0x0100 [0x3D] with a := 0xFF, f := 0x00 }
    (t.a, t.f, t.pc, t.frameCycles) = (0xFE, 0x40, 0x0101, 4) := by decide

/-- V3.21: RLCA: result 0 but Z = 0. -/
theorem test_rlca_zero_clears_z :
    let t := after { start 0x0100 [0x07] with a := 0x00, f := 0xF0 }
    (t.a, t.f, t.pc, t.frameCycles) = (0x00, 0x00, 0x0101, 4) := by decide

/-- V3.23: RLCA: old C not used, C cleared. -/
theorem test_rlca_old_carry_unused :
    let t := after { start 0x0100 [0x07] with a := 0x7F, f := 0x10 }
    (t.a, t.f, t.pc, t.frameCycles) = (0xFE, 0x00, 0x0101, 4) := by decide

/-- V3.26: XOR A: flags forced to 1000. -/
theorem test_xor_a :
    let t := after { start 0x0100 [0xAF] with a := 0x5A, f := 0x70 }
    (t.a, t.f, t.pc, t.frameCycles) = (0x00, 0x80, 0x0101, 4) := by decide

/-- V3.28: XOR A: F[3:0] kept: F = 0x8F. -/
theorem test_xor_a_keeps_low_f :
    let t := after { start 0x0100 [0xAF] with a := 0xFF, f := 0xFF }
    (t.a, t.f, t.pc, t.frameCycles) = (0x00, 0x8F, 0x0101, 4) := by decide

/-- V4.1: carry from C into B. -/
theorem test_inc_bc_carry_into_b :
    let t := after { start 0x0100 [0x03] with b := 0x00, c := 0xFF, f := 0xA0 }
    (t.r16 .bc, t.f, t.pc, t.frameCycles) = (0x0100, 0xA0, 0x0101, 8) := by decide

/-- V4.2: wrap, no Z. -/
theorem test_inc_de_wraps :
    let t := after { start 0x0100 [0x13] with d := 0xFF, e := 0xFF, f := 0xA0 }
    (t.r16 .de, t.f, t.pc, t.frameCycles) = (0x0000, 0xA0, 0x0101, 8) := by decide

/-- V4.3: no flags. -/
theorem test_inc_hl :
    let t := after { start 0x0100 [0x23] with h := 0x7F, l := 0xFF, f := 0xA0 }
    (t.r16 .hl, t.f, t.pc, t.frameCycles) = (0x8000, 0xA0, 0x0101, 8) := by decide

/-- V4.4: INC SP wrap (Tier X). -/
theorem test_inc_sp_wraps :
    let t := after { start 0x0100 [0x33] with sp := 0xFFFF, f := 0xA0 }
    (t.sp, t.f, t.pc, t.frameCycles) = (0x0000, 0xA0, 0x0101, 8) := by decide

/-- V4.5: borrow from B. -/
theorem test_dec_bc_borrow_from_b :
    let t := after { start 0x0100 [0x0B] with b := 0x01, c := 0x00, f := 0xA0 }
    (t.r16 .bc, t.f, t.pc, t.frameCycles) = (0x00FF, 0xA0, 0x0101, 8) := by decide

/-- V4.6: wrap. -/
theorem test_dec_de_wraps :
    let t := after { start 0x0100 [0x1B] with d := 0x00, e := 0x00, f := 0xA0 }
    (t.r16 .de, t.f, t.pc, t.frameCycles) = (0xFFFF, 0xA0, 0x0101, 8) := by decide

/-- V4.7: to zero, Z not set. -/
theorem test_dec_hl_to_zero :
    let t := after { start 0x0100 [0x2B] with h := 0x00, l := 0x01, f := 0xA0 }
    (t.r16 .hl, t.f, t.pc, t.frameCycles) = (0x0000, 0xA0, 0x0101, 8) := by decide

/-- V4.8: DEC SP wrap (Tier X). -/
theorem test_dec_sp_wraps :
    let t := after { start 0x0100 [0x3B] with sp := 0x0000, f := 0xA0 }
    (t.sp, t.f, t.pc, t.frameCycles) = (0xFFFF, 0xA0, 0x0101, 8) := by decide

/-- V4.10: C only, result 0, Z not set. -/
theorem test_add_hl_bc_carry_only :
    let t := after { start 0x0100 [0x09] with h := 0xF0, l := 0x00, f := 0x00, b := 0x10, c := 0x00 }
    (t.r16 .hl, t.f, t.pc, t.frameCycles) = (0x0000, 0x10, 0x0101, 8) := by decide

/-- V4.17: carry out of bit 11 exactly; F[3:0] kept. -/
theorem test_add_hl_bc_half_only :
    let t := after { start 0x0100 [0x09] with h := 0x08, l := 0x00, f := 0x0F, b := 0x08, c := 0x00 }
    (t.r16 .hl, t.f, t.pc, t.frameCycles) = (0x1000, 0x2F, 0x0101, 8) := by decide

/-- V4.11: H and C. -/
theorem test_add_hl_de_both :
    let t := after { start 0x0100 [0x19] with h := 0xFF, l := 0xFF, f := 0x00, d := 0x00, e := 0x01 }
    (t.r16 .hl, t.f, t.pc, t.frameCycles) = (0x0000, 0x30, 0x0101, 8) := by decide

/-- V4.13: adding 0: Z and N kept. -/
theorem test_add_hl_de_keeps_z_n :
    let t := after { start 0x0100 [0x19] with h := 0x12, l := 0x34, f := 0xC0, d := 0x00, e := 0x00 }
    (t.r16 .hl, t.f, t.pc, t.frameCycles) = (0x1234, 0xC0, 0x0101, 8) := by decide

/-- V4.14: doubling: C = bit 15, H = bit 11. -/
theorem test_add_hl_hl :
    let t := after { start 0x0100 [0x29] with h := 0x88, l := 0x00, f := 0x00 }
    (t.r16 .hl, t.f, t.pc, t.frameCycles) = (0x1000, 0x30, 0x0101, 8) := by decide

/-- V4.15: doubling without carries. -/
theorem test_add_hl_hl_no_carry :
    let t := after { start 0x0100 [0x29] with h := 0x04, l := 0x00, f := 0xF0 }
    (t.r16 .hl, t.f, t.pc, t.frameCycles) = (0x0800, 0xC0, 0x0101, 8) := by decide

/-- V4.16: ADD HL,SP (Tier X), N kept. -/
theorem test_add_hl_sp :
    let t := after { start 0x0100 [0x39] with h := 0x12, l := 0x34, f := 0x40, sp := 0xF000 }
    (t.r16 .hl, t.f, t.pc, t.frameCycles) = (0x0234, 0x50, 0x0101, 8) := by decide

/-- V5.5: largest backward. -/
theorem test_jr_nz_largest_backward :
    let t := after { start 0x0100 [0x20, 0x80] with f := 0x00 }
    (t.pc, t.f, t.frameCycles) = (0x0082, 0x00, 12) := by decide

/-- V5.16: displacement byte at 0x0000; base is 0x0001. -/
theorem test_jr_nz_displacement_wraps :
    let t := after { (start 0xFFFF [0x20]).writeByte 0x0000 0x10 with f := 0x00 }
    (t.pc, t.frameCycles) = (0x0011, 12) := by decide

/-- V5.6: JR Z taken. -/
theorem test_jr_z_taken :
    let t := after { start 0x0100 [0x28, 0x10] with f := 0x80 }
    (t.pc, t.f, t.frameCycles) = (0x0112, 0x80, 12) := by decide

/-- V5.7: JR Z not taken: N, H, C irrelevant. -/
theorem test_jr_z_not_taken :
    let t := after { start 0x0100 [0x28, 0x10] with f := 0x70 }
    (t.pc, t.f, t.frameCycles) = (0x0102, 0x70, 8) := by decide

/-- V5.8: JR NC taken: Z, N, H irrelevant. -/
theorem test_jr_nc_taken :
    let t := after { start 0x0100 [0x30, 0x10] with f := 0xE0 }
    (t.pc, t.f, t.frameCycles) = (0x0112, 0xE0, 12) := by decide

/-- V5.9: JR NC not taken. -/
theorem test_jr_nc_not_taken :
    let t := after { start 0x0100 [0x30, 0x10] with f := 0x10 }
    (t.pc, t.f, t.frameCycles) = (0x0102, 0x10, 8) := by decide

/-- V5.10: JR C taken backward. -/
theorem test_jr_c_taken :
    let t := after { start 0x0100 [0x38, 0xF0] with f := 0x10 }
    (t.pc, t.f, t.frameCycles) = (0x00F2, 0x10, 12) := by decide

/-- V5.11: JR C not taken. -/
theorem test_jr_c_not_taken :
    let t := after { start 0x0100 [0x38, 0xF0] with f := 0xE0 }
    (t.pc, t.f, t.frameCycles) = (0x0102, 0xE0, 8) := by decide

/-- V5.13: backward across 0x0000. -/
theorem test_jr_across_zero :
    let t := after { start 0x0000 [0x18, 0x80] with f := 0x00 }
    (t.pc, t.f, t.frameCycles) = (0xFF82, 0x00, 12) := by decide

/-- V5.14: forward across 0xFFFF. -/
theorem test_jr_across_top :
    let t := after { start 0xFFF0 [0x18, 0x7F] with f := 0x00 }
    (t.pc, t.f, t.frameCycles) = (0x0071, 0x00, 12) := by decide

/-! ## Faults, frames and the host -/

/-- V6.D3, V6.40: the fault carries the byte and its address. -/
theorem test_decode_fault :
    step (start 0x0100 [0xD3]) = .fault (.decodeFault 0xD3 0x0100) ∧
    step (start 0x0100 [0x40]) = .fault (.decodeFault 0x40 0x0100) := by
  constructor <;> rfl

/-- S9: the frame returns the fault; only the run state changes. -/
theorem test_decode_fault_frame :
    let s := budgeted 4 { start 0x0150 [0xD3] with a := 0x11, f := 0xF0, sp := 0x1234 }
    runFrame s = { outcome := .fault (.decodeFault 0xD3 0x0150), state := { s with runState := .halted }, steps := 0,
                   total := 0, refreshes := 0 } := by decide

/-- V6.n1: an unmapped byte as NOP. -/
theorem test_unmapped_as_nop :
    let t := after { start 0x0100 [0xD3] with cfg := { Config.default with unmappedAsNop := true } }
    (t.pc, t.frameCycles, t.runState) = (0x0101, 4, .running) := by decide

/-- V6.n2: without HALT_OPCODE the byte 0x76 is unmapped. -/
theorem test_halt_opcode_absent :
    step { start 0x0100 [0x76] with cfg := { Config.default with haltOpcode := none } } =
      .fault (.decodeFault 0x76 0x0100) := by rfl

/-- R200: the code numbers. -/
theorem test_error_codes :
    (Fault.decodeFault 0xD3 0x0100).kind.code = 1 ∧ Fault.addressRangeFault.kind.code = 2 ∧
    ErrorKind.configurationError.code = 3 := by decide

/-- R184, R192: a host's single step runs one instruction; after a fault the engine is Halted and a frame says so. -/
theorem test_host_step :
    (State.apply (start 0x0100 [0x04]) .step).b = 0x01 ∧
    State.apply (start 0x0150 [0xD3]) .step = { start 0x0150 [0xD3] with runState := .halted } ∧
    (runFrame (State.apply (start 0x0150 [0xD3]) .step)).outcome = .halted := by decide

/-- E1: a budget of 5 takes two NOPs, one of 4 takes one. -/
theorem test_nop_frames :
    runFrame (budgeted 5 (start 0x0000 [])) =
      { outcome := .frameComplete, state := budgeted 5 (start 0x0002 []), steps := 2, total := 8, refreshes := 1 } ∧
    runFrame (budgeted 4 (start 0x0000 [])) =
      { outcome := .frameComplete, state := budgeted 4 (start 0x0001 []), steps := 1, total := 4, refreshes := 1 } := by
  decide

/-- E4: HALT's cost reaches the budget; the frame is Halted, not complete, and the counter is kept. -/
theorem test_halt_reaches_budget :
    let r := runFrame (budgeted 8 (start 0x0000 [0x00, 0x76]))
    (r.outcome, r.state.runState, r.state.frameCycles, r.state.pc, r.refreshes) = (.halted, .halted, 8, 0x0002, 0) := by
  decide

/-- R186 with a budget of 1: one step of cost 20 ends the frame, the counter is zeroed. -/
theorem test_overshoot_discarded :
    let r := runFrame (budgeted 1 (start 0x0000 [0x08, 0x00, 0xC0]))
    (r.outcome, r.total, r.state.frameCycles, r.state.pc) = (.frameComplete, 20, 0, 0x0003) := by decide

/-- E5.3, E5.4: a budget below 1 is refused. -/
theorem test_construct_refuses :
    construct 0 false defaultOpcodeMap (some 0x76) = .error .configurationError ∧
    construct (-5) false defaultOpcodeMap (some 0x76) = .error .configurationError := by decide

/-- E5.1: the default configuration gives the reset state. -/
theorem test_construct_default : construct 69905 false defaultOpcodeMap (some 0x76) = .ok State.reset := by decide

/-- E5.5: the loader writes from address 0. -/
theorem test_load :
    State.reset.load [0x01, 0x34, 0x12] =
      .ok { State.reset with mem := [(0, 0x01), (1, 0x34), (2, 0x12)] } := by decide

/-- E5.9: reset clears memory and registers and keeps the configuration. -/
theorem test_external_reset :
    State.externalReset { budgeted 5 (start 0x0006 [0x76]) with runState := .halted, frameCycles := 56, b := 0x03 } =
      budgeted 5 State.reset := by decide

/-- S1: writes are masked. -/
theorem test_host_register_writes :
    (State.reset.hostWriteR8 .a 511).a = 0xFF ∧ (State.reset.hostWriteR8 .b (-1)).b = 0xFF ∧
    (State.reset.hostWriteR16 .sp (-2)).sp = 0xFFFE ∧ (State.reset.hostWritePC 0x12345).pc = 0x2345 := by decide

/-- S2, E6.5: pair writes split, high byte first. -/
theorem test_host_pair_writes :
    (State.reset.hostWriteR16 .hl 0x1ABCD).r16 .hl = 0xABCD ∧ (State.reset.hostWriteR16 .bc 0x12345).b = 0x23 ∧
    (State.reset.hostWriteR16 .bc 0x12345).c = 0x45 := by decide

/-- E6.7, E6.8: a flag write changes one bit of F. -/
theorem test_host_flag_writes :
    (State.hostWriteFlag { State.reset with f := 0x0F } .h 1).f = 0x2F ∧
    (State.hostWriteFlag { State.reset with f := 0xFF } .z 0).f = 0x7F := by decide

/-- E6.4: a host write between frames is seen by the next fetch. -/
theorem test_host_memory_write : (State.reset.hostWriteByte 0x0000 0x76).fetch = some .halt := by decide

/-- Memory keeps its canonical form: writing 0x00 removes the entry. -/
theorem test_memory_canonical :
    Memory.write 5 0x00 (Memory.write 3 0x01 (Memory.write 5 0x02 [])) = [(3, 0x01)] := by decide

/-! ## Witnesses: states and operands that meet the hypotheses of each obligation -/

/-- What `Runs1`, `Runs2` and `Runs3` ask of a state. -/
def Fetches (s : State) (op : Byte) : Prop := s.runState = .running ∧ DefaultMap s ∧ s.readByte s.pc = op

/-- At every address, the top of memory included. -/
theorem start_fetches (pc : Word) (op : Byte) : Fetches (start pc [op]) op := by
  refine ⟨rfl, ⟨rfl, rfl⟩, ?_⟩
  show Memory.read pc.toNat (Memory.write pc.toNat op []) = op
  rw [Memory.read_write (lo := 0) _ _ _ rfl, if_pos rfl]

/-- A configuration whose unmapped bytes run as NOP. -/
def fillConfig : Config := { Config.default with unmappedAsNop := true }

theorem witness_NopAdvancesPcOnly :
    Fetches (start 0xFFFF [0x00]) 0x00 ∧ fillConfig.mappedOp 0xD3 = none ∧ fillConfig.unmappedAsNop = true :=
  ⟨start_fetches _ _, by decide, rfl⟩

theorem witness_StopSkipsTwoBytesOnly : Fetches (start 0xFFFF [0x10]) 0x10 := start_fetches _ _

theorem witness_HaltEntersHalted :
    Fetches (start 0xFFFF [0x76]) 0x76 ∧ Config.default.haltFree = true ∧ Config.default.haltOpcode = some 0x76 ∧
    (let s := start 0xFFFF [0x76]
     s.runState = .running ∧ s.frameCycles < s.cfg.budget ∧ s.fetch = some .halt) ∧ HostAction.step ≠ .reset :=
  ⟨start_fetches _ _, by decide, rfl, by decide, by decide⟩

/-- At 0xFFFF the operand bytes are those at 0x0000 and 0x0001. -/
theorem witness_LoadImmediateWord :
    (0x31, Instr.ldSPd16, Reg16.sp) ∈ loadImm16Rows ∧ (0x01, Instr.ldBCd16, Reg16.bc) ∈ loadImm16Rows ∧
    Fetches (start 0xFFFF [0x31]) 0x31 ∧
    (let s := start 0xFFFF [0x31]
     (0x0000 : Word).toNat = (s.readByte (s.pc + 1)).toNat + 256 * (s.readByte (s.pc + 2)).toNat) :=
  ⟨by simp [loadImm16Rows], by simp [loadImm16Rows], start_fetches _ _, by decide⟩

theorem witness_LoadImmediateByte :
    (0x06, Instr.ldBd8, Reg8.b) ∈ loadImm8Rows ∧ (0x3E, Instr.ldAd8, Reg8.a) ∈ loadImm8Rows ∧
    Fetches (start 0xFFFF [0x3E]) 0x3E :=
  ⟨by simp [loadImm8Rows], by simp [loadImm8Rows], start_fetches _ _⟩

/-- A store at the top of memory, and one into the next opcode. -/
theorem witness_StoreAccumulatorThroughPair :
    (0x12, Instr.ldAtDEA, Reg16.de) ∈ storeARows ∧ (0x77, Instr.ldAtHLA, Reg16.hl) ∈ storeARows ∧
    Fetches (start 0xFFFF [0x77]) 0x77 ∧ (start 0xFFFF [0x77]).mem.wf = true ∧
    (let s : State := { start 0x0100 [0x77] with h := 0x01, l := 0x01 }
     s.mem.wf = true ∧ s.r16 .hl = s.pc + 1) :=
  ⟨by decide, by decide, start_fetches _ _, by decide, by decide⟩

theorem witness_LoadAccumulatorThroughPair :
    (0x0A, Instr.ldAAtBC, Reg16.bc) ∈ loadARows ∧ (0x7E, Instr.ldAAtHL, Reg16.hl) ∈ loadARows ∧
    Fetches (start 0xFFFF [0x7E]) 0x7E := ⟨by decide, by decide, start_fetches _ _⟩

theorem witness_StoreStackPointer :
    Fetches (start 0xFFFF [0x08]) 0x08 ∧ (start 0xFFFF [0x08]).mem.wf = true ∧
    (let s := start 0xFFFF [0x08]
     (0x0000 : Word).toNat = (s.readByte (s.pc + 1)).toNat + 256 * (s.readByte (s.pc + 2)).toNat) :=
  ⟨start_fetches _ _, by decide, by decide⟩

theorem witness_IncrementByteRegister :
    (0x04, Instr.incB, Reg8.b) ∈ inc8Rows ∧ (0x3C, Instr.incA, Reg8.a) ∈ inc8Rows ∧
    Fetches (start 0xFFFF [0x3C]) 0x3C := ⟨by decide, by decide, start_fetches _ _⟩

theorem witness_DecrementByteRegister :
    (0x05, Instr.decB, Reg8.b) ∈ dec8Rows ∧ (0x3D, Instr.decA, Reg8.a) ∈ dec8Rows ∧
    Fetches (start 0xFFFF [0x3D]) 0x3D := ⟨by decide, by decide, start_fetches _ _⟩

theorem witness_RotateAccumulatorLeft : Fetches (start 0xFFFF [0x07]) 0x07 := start_fetches _ _

theorem witness_XorClearsAccumulator : Fetches (start 0xFFFF [0xAF]) 0xAF := start_fetches _ _

theorem witness_IncrementWordRegister :
    (0x03, Instr.incBC, Reg16.bc) ∈ inc16Rows ∧ (0x33, Instr.incSP, Reg16.sp) ∈ inc16Rows ∧
    Fetches (start 0xFFFF [0x33]) 0x33 := ⟨by decide, by decide, start_fetches _ _⟩

theorem witness_DecrementWordRegister :
    (0x0B, Instr.decBC, Reg16.bc) ∈ dec16Rows ∧ (0x3B, Instr.decSP, Reg16.sp) ∈ dec16Rows ∧
    Fetches (start 0xFFFF [0x3B]) 0x3B := ⟨by decide, by decide, start_fetches _ _⟩

theorem witness_AddIntoHL :
    (0x29, Instr.addHLHL, Reg16.hl) ∈ addHLRows ∧ (0x39, Instr.addHLSP, Reg16.sp) ∈ addHLRows ∧
    Fetches (start 0xFFFF [0x39]) 0x39 := ⟨by decide, by decide, start_fetches _ _⟩

/-- Each condition taken and not taken. -/
theorem witness_ConditionalJump :
    (0x20, Instr.jrNZ, 7, false) ∈ jumpIfRows ∧ (0x28, Instr.jrZ, 7, true) ∈ jumpIfRows ∧
    (0x30, Instr.jrNC, 4, false) ∈ jumpIfRows ∧ (0x38, Instr.jrC, 4, true) ∈ jumpIfRows ∧
    Fetches (start 0xFFFF [0x20]) 0x20 ∧ State.reset.f.getLsbD 7 = false ∧ State.reset.f.getLsbD 7 ≠ true ∧
    State.reset.f.getLsbD 4 = false ∧ State.reset.f.getLsbD 4 ≠ true :=
  ⟨by simp [jumpIfRows], by simp [jumpIfRows], by simp [jumpIfRows], by simp [jumpIfRows], start_fetches _ _, by decide,
    by decide, by decide, by decide⟩

theorem witness_UnconditionalJump : Fetches (start 0xFFFF [0x18]) 0x18 := start_fetches _ _

theorem witness_LowBitsOfFAreKept :
    (∃ t, exec .xorA (start 0x0000 [0xAF]) = .next t) ∧ ∃ t, step (start 0x0000 [0xAF]) = .next t :=
  ⟨⟨_, rfl⟩, ⟨_, rfl⟩⟩

theorem witness_UnnamedFlagsAreKept :
    (∃ t, exec .incB State.reset = .next t) ∧ 4 < 8 ∧ 4 ∉ flagBitsWritten .incB ∧ 7 ∉ flagBitsWritten .addHLBC :=
  ⟨⟨_, rfl⟩, by decide, by decide, by decide⟩

theorem witness_StackPointerWriters :
    (∃ t, exec .decSP State.reset = .next t ∧ t.sp ≠ State.reset.sp) ∧
    (∃ t, exec .nop State.reset = .next t) ∧ Instr.nop ∉ [Instr.incSP, .decSP, .addHLSP] ∧
    ∀ w, Instr.nop ≠ .ldSPd16 w ∧ Instr.nop ≠ .ldAtA16SP w :=
  ⟨⟨_, rfl, by decide⟩, ⟨_, rfl⟩, by decide, by simp⟩

theorem witness_ProgramCounterAdvance : ∃ t, exec (.jr 0x80) State.reset = .next t := ⟨_, rfl⟩

theorem witness_MemoryChangesOnlyWhereStored :
    State.reset.mem.wf = true ∧ (∃ t, exec (.ldAtA16SP 0xFFFF) State.reset = .next t) ∧
    (0x0001 : Word) ∉ storedAt State.reset (.ldAtA16SP 0xFFFF) := ⟨by decide, ⟨_, rfl⟩, by decide⟩

theorem witness_CycleCosts :
    (∃ t, exec (.jrC 0x00) State.reset = .next t) ∧ fillConfig.mappedOp 0xFF = none ∧
    fillConfig.unmappedAsNop = true := ⟨⟨_, rfl⟩, by decide, rfl⟩

theorem witness_OnlyHaltStopsEngine :
    (∃ t, exec .halt State.reset = .next t) ∧ (∃ t, exec (.stop 0xD3) State.reset = .next t) ∧
    Instr.stop 0xD3 ≠ .halt ∧ State.reset.halt.runState = .halted ∧ HostAction.step ≠ .reset ∧
    HostAction.writeR8 .f 0xFF ∉ [HostAction.runFrame, .step, .reset] :=
  ⟨⟨_, rfl⟩, ⟨_, rfl⟩, by decide, rfl, by decide, by decide⟩

theorem witness_DecodeAfterEncode : Config.default.wf = true ∧ Instr.wf Config.default (.ldSPd16 0xFFFF) = true := by
  decide

theorem witness_EncodeAfterDecode : decode Config.default [0x08, 0xFF, 0xFF, 0x76] = .ok (.ldAtA16SP 0xFFFF, [0x76]) := by
  decide

theorem witness_UnmappedBytesAreRejected :
    Fetches (start 0xFFFF [0xFF]) 0xFF ∧ unmappedByte 0xFF = true ∧ unmappedByte 0x0F = true ∧
    unmappedByte 0x3F = true ∧ unmappedByte 0x75 = true ∧ unmappedByte 0x76 = false ∧ unmappedByte 0xAF = false ∧
    unmappedByte 0xB0 = true := ⟨start_fetches _ _, by decide⟩

theorem witness_NopFillNeverFaults :
    let s : State := { start 0xFFFF [0xFF] with cfg := fillConfig }
    s.cfg.unmappedAsNop = true ∧ s.runState = .running ∧ s.cfg.mappedOp (s.readByte s.pc) = none := by decide

/-- The ends of the range; the jumps at the ends of memory. -/
theorem witness_AssembledJumpReachesTarget :
    let dist (p target : Word) : Int := (target.toNat : Int) - ((p.toNat : Int) + 2)
    dist 0x0100 0x0082 = -128 ∧ dist 0x0100 0x0181 = 127 ∧ dist 0xFFFF 0xFFFF = -2 ∧
    (start 0x0100 []).pc = 0x0100 := by decide

theorem witness_StepRunsDecodedInstruction :
    let s := start 0xFFFF [0x04]
    s.runState = .running ∧
    decode s.cfg [s.readByte s.pc, s.readByte (s.pc + 1), s.readByte (s.pc + 2)] = .ok (.incB, [0x00, 0x00]) := by
  decide

theorem witness_DecodeFaultHaltsOnly :
    let s := start 0xFFFF [0xFF]
    s.runState = .running ∧ s.cfg.decodeByte (s.readByte s.pc) = none ∧ s.frameCycles < s.cfg.budget := by decide

theorem witness_FaultDependsOnOpcodeOnly :
    let s := start 0x0000 [0xD3]
    let u : State := { start 0x9000 [0xD3] with a := 0x11, f := 0xF0 }
    s.runState = .running ∧ u.runState = .running ∧ s.cfg = u.cfg ∧ s.readByte s.pc = u.readByte u.pc := by decide

theorem witness_OnlyDecodeFaultsOccur : step (start 0xFFFF [0xD3]) = .fault (.decodeFault 0xD3 0xFFFF) := rfl

theorem witness_MemoryWriteChangesOneByte :
    (start 0x0000 [0x76]).mem.wf = true ∧ (0x0001 : Word) ∉ [(0x0000 : Word)] := by decide

theorem witness_StepKeepsInvariant :
    (start 0x0000 [0x08, 0xFF, 0xFF]).Inv ∧ ∃ t, step (start 0x0000 [0x08, 0xFF, 0xFF]) = .next t :=
  ⟨⟨by decide, by decide⟩, ⟨_, rfl⟩⟩

/-- The counter bound itself is met. -/
theorem witness_HostRunsKeepInvariant :
    State.Inv { State.reset with frameCycles := 69924 } ∧ HostAction.runFrame ≠ .step ∧
    State.CounterBounded { State.reset with frameCycles := 69924 } ∧
    (∃ s, construct 1 false defaultOpcodeMap (some 0x76) = .ok s) ∧
    HostAction.step ∉ [HostAction.load [0x04], .runFrame] :=
  ⟨⟨by decide, by decide⟩, by decide, by show 69924 ≤ 69905 - 1 + 20; decide, ⟨_, rfl⟩, by decide⟩

theorem witness_ConfigurationErrorIffBudgetBelowOne : (0 : Int) < 1 ∧ (1 : Int) ≤ 1 := by decide

theorem witness_LoaderWritesImage :
    State.reset.mem.wf = true ∧ ([] : List Byte).length ≤ 65536 ∧ (List.replicate 65536 (0x04 : Byte)).length ≤ 65536 ∧
    65536 < (List.replicate 65537 (0x04 : Byte)).length ∧
    ∃ t, (start 0x0006 [0x76]).externalReset.load [0x04] = .ok t :=
  ⟨by decide, by decide, by rw [List.length_replicate], by rw [List.length_replicate]; omega, ⟨_, rfl⟩⟩

theorem witness_PairRoundTrip :
    Reg8.a ∉ halves .bc ∧ Reg8.c ∉ halves .sp ∧ Reg16.bc ≠ .sp := by decide

theorem witness_FlagWriteSetsOneBit :
    (Flag.z, 7) ∈ [(Flag.z, 7), (.n, 6), (.h, 5), (.c, 4)] ∧ (Flag.c, 4) ∈ [(Flag.z, 7), (.n, 6), (.h, 5), (.c, 4)] ∧
    0 < 8 ∧ 0 ≠ 4 := by decide

theorem witness_HaltedIsTerminal : State.reset.halt.runState = .halted := rfl

theorem witness_FullCounterRunsNoStep :
    let s : State := { State.reset with frameCycles := 69905 }
    s.runState = .running ∧ s.cfg.budget ≤ s.frameCycles := by decide

theorem witness_CompletedFrameBounds :
    let s := budgeted 5 (start 0x0000 [])
    1 ≤ s.cfg.budget ∧ s.frameCycles = 0 ∧ (runFrame s).outcome = .frameComplete := by decide

theorem witness_NopImageFrame :
    State.reset.runState = .running ∧ State.reset.frameCycles = 0 ∧
    State.reset.cfg.decodeByte 0x00 = some .nop ∧ ∀ addr, State.reset.readByte addr = 0x00 :=
  ⟨rfl, rfl, by decide, fun _ => rfl⟩

/-- Each way a frame ends. -/
theorem witness_FrameIsRunOfSteps :
    State.reset.halt.runState = .halted ∧ (start 0x0000 []).runState = .running ∧
    0 < (runFrame (budgeted 4 (start 0x0000 []))).steps ∧
    (runFrame (budgeted 4 (start 0x0000 []))).outcome = .frameComplete ∧
    (runFrame (budgeted 4 (start 0x0000 [0x76]))).outcome = .halted ∧
    (runFrame (budgeted 4 (start 0x0000 [0xD3]))).outcome = .fault (.decodeFault 0xD3 0x0000) := by decide

/-- The bound itself is met. -/
theorem witness_FrameKeepsCounterBound :
    State.reset.CounterBounded ∧ State.CounterBounded { State.reset with frameCycles := 69924 } :=
  ⟨Nat.zero_le _, by show 69924 ≤ 69905 - 1 + 20; decide⟩

theorem witness_BudgetNeverChangesSteps : ∃ t, Steps 1 (start 0x0000 [0x04]) t := ⟨_, rfl⟩

theorem witness_HaltedStepsChangeNothing : (start 0x0000 [0x04]).halt.runState = .halted := rfl

theorem witness_HostStepRunsOneStep :
    (∃ t, step (start 0xFFFF [0x10]) = .next t) ∧ (∃ r, step (start 0xFFFF [0xD3]) = .fault r) ∧
    (start 0xFFFF [0xD3]).runState = .running ∧
    (let s := start 0xFFFF [0xD3]
     s.cfg.decodeByte (s.readByte s.pc) = none) ∧
    HostAction.reset ∉ [HostAction.writeByte 0xFFFF 0x00, .runFrame, .step] :=
  ⟨⟨_, rfl⟩, ⟨_, rfl⟩, rfl, by decide, by decide⟩

theorem witness_CounterIsUnobservable : ∃ t, Steps 1 (start 0xFFFF [0x10]) t := ⟨_, rfl⟩

end Sys2Proof.Tests
end

/-! The state family (10_state.md): who writes F[3:0], SP, PC and the run state, and what a host's register, pair and
flag writes do. The claims over all instructions go through `Meaning`, which names the shared operation each
instruction runs. -/

namespace Sys2Proof.Proofs

open Sys2Proof Sys2Proof.Machine Sys2Proof.Claims

/-! ## The shared operation of each instruction -/

/-- The conditional jumps with their conditions (44_branch.md R176). -/
def jumpConds : List ((Byte → Instr) × Cond) :=
  [(.jrNZ, .nz), (.jrZ, .z), (.jrNC, .nc), (.jrC, .c)]

/-- The shared operation an instruction runs, one case per class of the opcode table. -/
inductive Meaning : Instr → (State → State) → Prop where
  | nop : Meaning .nop fun s => s.retire 1 4
  | stop (skipped : Byte) : Meaning (.stop skipped) fun s => s.retire 2 4
  | halt : Meaning .halt fun s => s.halt.retire 1 4
  | loadImm16 {op i r} (row : (op, i, r) ∈ loadImm16Rows) (d16 : Word) : Meaning (i d16) fun s => s.loadImm16 r d16
  | loadImm8 {op i r} (row : (op, i, r) ∈ loadImm8Rows) (d8 : Byte) : Meaning (i d8) fun s => s.loadImm8 r d8
  | storeA {op i r} (row : (op, i, r) ∈ storeARows) : Meaning i fun s => s.storeA r
  | loadA {op i r} (row : (op, i, r) ∈ loadARows) : Meaning i fun s => s.loadA r
  | storeSP (a16 : Word) : Meaning (.ldAtA16SP a16) fun s => s.storeSP a16
  | incR8 {op i r} (row : (op, i, r) ∈ inc8Rows) : Meaning i fun s => s.incR8 r
  | decR8 {op i r} (row : (op, i, r) ∈ dec8Rows) : Meaning i fun s => s.decR8 r
  | rotateLeftA : Meaning .rlca fun s => s.rotateLeftA
  | clearA : Meaning .xorA fun s => s.clearA
  | incR16 {op i r} (row : (op, i, r) ∈ inc16Rows) : Meaning i fun s => s.incR16 r
  | decR16 {op i r} (row : (op, i, r) ∈ dec16Rows) : Meaning i fun s => s.decR16 r
  | addHL {op i r} (row : (op, i, r) ∈ addHLRows) : Meaning i fun s => s.addHL r
  | jumpIf {i cc} (row : (i, cc) ∈ jumpConds) (e8 : Byte) : Meaning (i e8) fun s => s.jumpIf cc e8
  | jumpAlways (e8 : Byte) : Meaning (.jr e8) fun s => s.jumpAlways e8

theorem exists_meaning (i : Instr) : ∃ f, Meaning i f := by
  cases i with
  | nop => exact ⟨_, .nop⟩
  | stop v => exact ⟨_, .stop v⟩
  | halt => exact ⟨_, .halt⟩
  | ldBCd16 v | ldDEd16 v | ldHLd16 v | ldSPd16 v => exact ⟨_, .loadImm16 (by repeat constructor) v⟩
  | ldBd8 v | ldCd8 v | ldDd8 v | ldEd8 v | ldHd8 v | ldLd8 v | ldAd8 v =>
    exact ⟨_, .loadImm8 (by repeat constructor) v⟩
  | ldAtBCA | ldAtDEA | ldAtHLA => exact ⟨_, .storeA (by repeat constructor)⟩
  | ldAAtBC | ldAAtDE | ldAAtHL => exact ⟨_, .loadA (by repeat constructor)⟩
  | ldAtA16SP a16 => exact ⟨_, .storeSP a16⟩
  | incB | incC | incD | incE | incH | incL | incA => exact ⟨_, .incR8 (by repeat constructor)⟩
  | decB | decC | decD | decE | decH | decL | decA => exact ⟨_, .decR8 (by repeat constructor)⟩
  | rlca => exact ⟨_, .rotateLeftA⟩
  | xorA => exact ⟨_, .clearA⟩
  | incBC | incDE | incHL | incSP => exact ⟨_, .incR16 (by repeat constructor)⟩
  | decBC | decDE | decHL | decSP => exact ⟨_, .decR16 (by repeat constructor)⟩
  | addHLBC | addHLDE | addHLHL | addHLSP => exact ⟨_, .addHL (by repeat constructor)⟩
  | jrNZ e8 | jrZ e8 | jrNC e8 | jrC e8 => exact ⟨_, .jumpIf (by repeat constructor) e8⟩
  | jr e8 => exact ⟨_, .jumpAlways e8⟩

theorem Meaning.exec_eq {i : Instr} {f : State → State} (h : Meaning i f) (s : State) : exec i s = .next (f s) := by
  cases h with
  | nop | stop | halt | storeSP | rotateLeftA | clearA | jumpAlways => rfl
  | loadImm16 row _ | loadImm8 row _ | storeA row | loadA row | incR8 row | decR8 row | incR16 row | decR16 row
  | addHL row | jumpIf row _ => fin_cases row <;> rfl

/-- What an instruction answers is what its shared operation makes of the state. -/
theorem exec_next_cases {i : Instr} {s t : State} (h : exec i s = .next t) : ∃ f, Meaning i f ∧ t = f s := by
  obtain ⟨f, hf⟩ := exists_meaning i
  rw [hf.exec_eq] at h
  injection h with e
  exact ⟨f, hf, e.symm⟩

/-! ## F[3:0] -/

theorem keepsLowF_of_f_eq {s t : State} (h : t.f = s.f) : KeepsLowF s t := fun n _ => by rw [h]

/-- Each instruction keeps F or puts the flags it names, and no instruction has F as its byte operand. -/
theorem Meaning.keepsLowF {i : Instr} {f : State → State} (h : Meaning i f) (s : State) : KeepsLowF s (f s) := by
  cases h with
  | nop | stop | halt | storeA | loadA | storeSP | jumpAlways => exact keepsLowF_of_f_eq rfl
  | loadImm16 row _ | loadImm8 row _ | incR16 row | decR16 row => fin_cases row <;> exact keepsLowF_of_f_eq rfl
  | jumpIf => exact keepsLowF_of_f_eq (by simp only [State.jumpIf_effect])
  | @incR8 _ _ r row =>
    have hr : r ≠ .f := by fin_cases row <;> decide
    obtain ⟨-, hf, -⟩ := s.incR8_effect r hr
    intro n hn
    simp only [hf, incFlags, getLsbD_putFlag_low _ _ _ n hn]
  | @decR8 _ _ r row =>
    have hr : r ≠ .f := by fin_cases row <;> decide
    obtain ⟨-, hf, -⟩ := s.decR8_effect r hr
    intro n hn
    simp only [hf, decFlags, getLsbD_putFlag_low _ _ _ n hn]
  | @addHL _ _ r _ =>
    obtain ⟨-, hf, -⟩ := s.addHL_effect r
    intro n hn
    simp only [hf, addFlags16, getLsbD_putFlag_low _ _ _ n hn]
  | rotateLeftA =>
    intro n hn
    simp only [State.rotateLeftA, State.retire_f, rlcaFlags, getLsbD_putFlag_low _ _ _ n hn]
  | clearA =>
    intro n hn
    simp only [State.clearA, State.retire_f, xorFlags, getLsbD_putFlag_low _ _ _ n hn]

theorem exec_keepsLowF {i : Instr} {s t : State} (h : exec i s = .next t) : KeepsLowF s t := by
  obtain ⟨f, hf, rfl⟩ := exec_next_cases h
  exact hf.keepsLowF s

/-- Settles O18: instructions keep F[3:0], a Running step is one, and a Halted step changes nothing. -/
theorem lowBitsOfFAreKept : Obligations.LowBitsOfFAreKept := by
  refine ⟨fun _ _ _ => exec_keepsLowF, fun s t h => ?_, fun n _ => by simp [State.reset, State.create]⟩
  rcases step_next_cases h with ⟨-, rfl⟩ | ⟨-, _, -, hexec⟩
  · exact keepsLowF_of_f_eq rfl
  · exact exec_keepsLowF hexec

/-! ## SP -/

/-- The one row of SP is the last of each table of 16-bit operands. -/
theorem Meaning.sp_writer {i : Instr} {f : State → State} (h : Meaning i f) {s : State} (hne : (f s).sp ≠ s.sp) :
    i = .incSP ∨ i = .decSP ∨ ∃ d16, i = .ldSPd16 d16 := by
  cases h with
  | nop | stop | halt | storeA | loadA | storeSP | rotateLeftA | clearA | addHL | jumpAlways => exact absurd rfl hne
  | loadImm8 row _ | incR8 row | decR8 row => fin_cases row <;> exact absurd rfl hne
  | jumpIf => exact absurd (by simp only [State.jumpIf_effect]) hne
  | loadImm16 row d16 =>
    fin_cases row
    on_goal 4 => exact .inr (.inr ⟨d16, rfl⟩)
    all_goals exact absurd rfl hne
  | incR16 row =>
    fin_cases row
    on_goal 4 => exact .inl rfl
    all_goals exact absurd rfl hne
  | decR16 row =>
    fin_cases row
    on_goal 4 => exact .inr (.inl rfl)
    all_goals exact absurd rfl hne

/-- An instruction for which SP is no operand commutes with a change of SP. -/
theorem Meaning.withSP {i : Instr} {f : State → State} (h : Meaning i f) (hop : i ∉ [.incSP, .decSP, .addHLSP])
    (himm : ∀ w, i ≠ .ldSPd16 w ∧ i ≠ .ldAtA16SP w) (s : State) (v : Word) :
    f { s with sp := v } = { f s with sp := v } := by
  cases h with
  | nop | stop | halt | rotateLeftA | clearA | jumpAlways => rfl
  | storeSP a16 => exact absurd rfl (himm a16).2
  | loadImm8 row _ | storeA row | loadA row | incR8 row | decR8 row => fin_cases row <;> rfl
  | jumpIf => simp only [State.jumpIf_effect]
  | loadImm16 row d16 =>
    fin_cases row
    on_goal 4 => exact absurd rfl (himm d16).1
    all_goals rfl
  | incR16 row | decR16 row | addHL row =>
    fin_cases row
    on_goal 4 => exact absurd (by decide) hop
    all_goals rfl

/-- Settles O20: the operation of each instruction writes SP only where SP is its operand, and else does not read it. -/
theorem stackPointerWriters : Obligations.StackPointerWriters := by
  refine ⟨fun i s t h hne => ?_, fun i s t v h hop himm => ?_⟩
  · obtain ⟨f, hf, rfl⟩ := exec_next_cases h
    exact hf.sp_writer hne
  · obtain ⟨f, hf, rfl⟩ := exec_next_cases h
    rw [hf.exec_eq, hf.withSP hop himm]

/-! ## PC -/

theorem ofInt8_toNat (v : Int) : ((BitVec.ofInt 8 v).toNat : Int) = v % 256 := by
  rw [BitVec.toNat_ofInt]; omega

theorem ofInt16_toNat (v : Int) : ((BitVec.ofInt 16 v).toNat : Int) = v % 65536 := by
  rw [BitVec.toNat_ofInt]; omega

/-- The claims' `signed(e8)` is what the model extends to a word (00_scope.md R7; 44_branch.md R175). -/
theorem displacement_toNat (e8 : Byte) : ((displacement e8).toNat : Int) = signed e8 % 65536 := by
  have hsigned : signed e8 = e8.toInt := by
    rw [signed, BitVec.toInt_eq_toNat_cond]
    split <;> split <;> omega
  rw [hsigned, displacement, BitVec.signExtend, ofInt16_toNat]

theorem lengthOf_jumpIf {i : Byte → Instr} {cc : Cond} (row : (i, cc) ∈ jumpConds) (e8 : Byte) :
    lengthOf (i e8) = 2 := by
  fin_cases row <;> rfl

theorem takenBy_jumpIf {i : Byte → Instr} {cc : Cond} (row : (i, cc) ∈ jumpConds) (s : State) (e8 : Byte) :
    takenBy s (i e8) = if condHolds s.f cc then some e8 else none := by
  have hnot (b : Bool) : (if b then none else some e8) = if !b then some e8 else none := by cases b <;> rfl
  fin_cases row
  · exact hnot _
  · rfl
  · exact hnot _
  · rfl

theorem Meaning.pc_eq {i : Instr} {f : State → State} (h : Meaning i f) (s : State) :
    (f s).pc = s.pc + BitVec.ofNat 16 (lengthOf i) + ((takenBy s i).map displacement).getD 0 := by
  cases h with
  | nop | stop | halt | storeSP | rotateLeftA | clearA => exact (BitVec.add_zero _).symm
  | loadImm16 row _ | loadImm8 row _ | storeA row | loadA row | incR8 row | decR8 row | incR16 row | decR16 row
  | addHL row => fin_cases row <;> exact (BitVec.add_zero _).symm
  | jumpAlways => rfl
  | jumpIf row e8 =>
    simp only [State.jumpIf_effect, takenBy_jumpIf row, lengthOf_jumpIf row]
    split
    · rfl
    · exact (BitVec.add_zero _).symm

/-- Settles O21: `Meaning.pc_eq` over the integers. -/
theorem programCounterAdvance : Obligations.ProgramCounterAdvance := by
  refine ⟨fun i s t h => ?_, fun _ => rfl⟩
  obtain ⟨f, hf, rfl⟩ := exec_next_cases h
  rw [hf.pc_eq]
  cases takenBy s i with
  | none => simp
  | some e8 =>
    have := displacement_toNat e8
    simp
    omega

/-! ## The run state -/

theorem Meaning.runState_eq {i : Instr} {f : State → State} (h : Meaning i f) (s : State) :
    (f s).runState = if i = .halt then .halted else s.runState := by
  cases h with
  | nop | stop | halt | storeSP | rotateLeftA | clearA | jumpAlways => rfl
  | loadImm16 row _ | loadImm8 row _ | storeA row | loadA row | incR8 row | decR8 row | incR16 row | decR16 row
  | addHL row => fin_cases row <;> rfl
  | jumpIf row => simp only [State.jumpIf_effect]; fin_cases row <;> rfl

/-- An instruction other than HALT commutes with a change of the run state. -/
theorem Meaning.withRunState {i : Instr} {f : State → State} (h : Meaning i f) (hi : i ≠ .halt) (s : State)
    (r : RunState) : f { s with runState := r } = { f s with runState := r } := by
  cases h with
  | halt => exact absurd rfl hi
  | nop | stop | storeSP | rotateLeftA | clearA | jumpAlways => rfl
  | loadImm16 row _ | loadImm8 row _ | storeA row | loadA row | incR8 row | decR8 row | incR16 row | decR16 row
  | addHL row => fin_cases row <;> rfl
  | jumpIf => simp only [State.jumpIf_effect]

/-- A host action other than a frame, a single step and reset leaves the run state. -/
theorem apply_runState {act : HostAction} (hact : act ∉ [HostAction.runFrame, .step, .reset]) (s : State) :
    (s.apply act).runState = s.runState := by
  cases act with
  | load image => by_cases h : image.length ≤ 65536 <;> simp [State.apply, State.load, h]
  | writeR8 r v => exact s.setR8_runState r _
  | writeR16 r v => exact s.setR16_runState r _
  | writePC | writeFlag | writeByte => rfl
  | runFrame | step | reset => exact absurd (by decide) hact

/-- A host action other than reset finds and leaves Halted: a frame and a single step of a Halted engine run nothing. -/
theorem apply_of_halted {s : State} (h : s.runState = .halted) {act : HostAction} (hact : act ≠ .reset) :
    (s.apply act).runState = .halted := by
  cases act with
  | runFrame => simp [State.apply, runFrame, frameStop, h]
  | step => simp [State.apply, State.hostStep_of_halted h, h]
  | reset => exact absurd rfl hact
  | load | writeR8 | writeR16 | writePC | writeFlag | writeByte => rw [apply_runState (by simp), h]

/-- Settles O24: no operation but HALT's reads or writes the run state; the host actions case by case. -/
theorem onlyHaltStopsEngine : Obligations.OnlyHaltStopsEngine := by
  refine ⟨fun i s t h => ?_, fun i s t r h hi => ?_, fun _ => rfl, fun s _ hact => apply_runState hact s,
    fun _ _ hact h => apply_of_halted h hact, fun _ => rfl⟩
  · obtain ⟨f, hf, rfl⟩ := exec_next_cases h
    exact hf.runState_eq s
  · obtain ⟨f, hf, rfl⟩ := exec_next_cases h
    rw [hf.exec_eq, hf.withRunState hi]

/-! ## Writes by the host: registers, pairs, flags -/

/-- A pair is read as `high * 256 + low` (10_state.md R14). -/
theorem r16_toNat (s : State) (r : Reg16) : (s.r16 r).toNat = value16 s r := by
  cases r <;> simp [State.r16, value16, wordOf_toNat, Nat.mul_comm]

theorem holds16_setR16 (s : State) (r : Reg16) (w : Word) : Holds16 (s.setR16 r w) w.toNat r := by
  cases r with
  | sp => rfl
  | bc | de | hl => exact ⟨hiByte_toNat w, loByte_toNat w⟩

theorem keepsR8But_setR16 (s : State) (r : Reg16) (w : Word) : KeepsR8But (halves r) s (s.setR16 r w) := by
  intro q hq
  obtain ⟨-, hkeep, -⟩ := s.loadImm16_effect r w
  simpa [State.loadImm16] using hkeep q (by cases r <;> exact hq)

theorem keepsSPUnless_setR16 (s : State) (r : Reg16) (w : Word) : KeepsSPUnless r s (s.setR16 r w) := by
  intro hr
  obtain ⟨-, -, hkeep, -⟩ := s.loadImm16_effect r w
  exact hkeep hr

theorem keepsAllButData_setR16 (s : State) (r : Reg16) (w : Word) : KeepsAllButData s (s.setR16 r w) := by
  simp [KeepsAllButData, KeepsEngine]

theorem keepsR8But_setR8 (s : State) (r : Reg8) (v : Byte) : KeepsR8But [r] s (s.setR8 r v) := by
  intro q hq
  rw [State.r8_setR8, if_neg (by simpa using hq)]

theorem keepsAllButData_setR8 (s : State) (r : Reg8) (v : Byte) : KeepsAllButData s (s.setR8 r v) := by
  simp [KeepsAllButData, KeepsEngine]

/-- Settles O44: what `setR16` makes each half hold, read back through `value16`. -/
theorem pairRoundTrip : Obligations.PairRoundTrip := by
  intro s v
  have h8 := ofInt8_toNat v
  have h16 := ofInt16_toNat v
  refine ⟨fun r => ⟨?_, ?_, keepsR8But_setR16 s r _, keepsSPUnless_setR16 s r _, keepsAllButData_setR16 s r _⟩, ?_⟩
  · rw [State.hostWriteR16, State.r16_setR16_same, h16]
  · have := holds16_setR16 s r (BitVec.ofInt 16 v)
    rwa [← h16, Int.toNat_natCast]
  · simp only [r16_toNat, value16, State.hostWriteR8, State.setR8, Nat.cast_add, Nat.cast_mul, Nat.cast_ofNat, h8,
      and_self]

/-- Settles O45: `BitVec.ofInt` is the reduction modulo 256 or 65,536, and a write touches one field. -/
theorem registerWritesMask : Obligations.RegisterWritesMask := by
  intro s v
  refine ⟨fun r => ⟨?_, keepsR8But_setR8 s r _, s.setR8_sp r _, keepsAllButData_setR8 s r _⟩, ofInt16_toNat v, rfl,
    ofInt16_toNat v, rfl⟩
  rw [State.hostWriteR8, State.r8_setR8, if_pos rfl, ofInt8_toNat]

/-- Settles O46: `getLsbD_putFlag` at the flag's own bit and at the other seven. -/
theorem flagWriteSetsOneBit : Obligations.FlagWriteSetsOneBit := by
  intro s v k bit hk
  obtain rfl : bit = flagBit k := by fin_cases hk <;> rfl
  have hbit (n : Nat) (hn : n < 8) := getLsbD_putFlag s.f k (v != 0) n hn
  refine ⟨rfl, ?_, fun n hn hne => ?_, rfl⟩
  · have hk8 : flagBit k < 8 := by cases k <;> decide
    rw [State.hostWriteFlag, State.setFlag_f, hbit _ hk8, if_pos rfl]
    exact (decide_not ..).symm
  · rw [State.hostWriteFlag, State.setFlag_f, hbit n hn, if_neg hne]

end Sys2Proof.Proofs

/-! The encoding family (30_encoding.md): which bytes the default map rejects, and what UNMAPPED_AS_NOP makes of an
unmapped byte. A step faults exactly where `decodeByte` gives no handler, so both claims are about `decodeByte`. -/

namespace Sys2Proof.Proofs

open Sys2Proof Sys2Proof.Machine Sys2Proof.Claims

/-! ## Bytes with and without a handler -/

theorem decodeByte_eq_none_iff (cfg : Config) (b : Byte) :
    cfg.decodeByte b = none ↔ cfg.unmappedAsNop = false ∧ cfg.mappedOp b = none := by
  cases h : cfg.mappedOp b with
  | none => simp [Config.decodeByte_of_unmapped h]
  | some op => simp [Config.decodeByte_of_mappedOp h]

/-- The 202 bytes of R68 are those with no row in the table of R66: each of the 256 bytes is looked up. -/
theorem default_mappedOp_eq_none_iff (b : Byte) : Config.default.mappedOp b = none ↔ unmappedByte b = true := by
  revert b
  decide

/-- Which bytes are mapped depends on OPCODE_MAP and HALT_OPCODE only. -/
theorem mappedOp_of_defaultMap {s : State} (h : DefaultMap s) (b : Byte) :
    s.cfg.mappedOp b = Config.default.mappedOp b := by
  obtain ⟨hmap, hhalt⟩ := h
  rw [Config.mappedOp, Config.mappedOp, hmap, hhalt]
  rfl

/-! ## The decoder at a byte with and without a handler -/

theorem decode_of_no_handler {cfg : Config} {b : Byte} (h : cfg.decodeByte b = none) (bytes : List Byte) :
    decode cfg (b :: bytes) = .error (.unimplementedOpcode b) := by
  simp only [decode, h]

/-- With two operand bytes at hand, a byte with a handler decodes whatever they are. -/
theorem decode_of_handler {cfg : Config} {b : Byte} (h : cfg.decodeByte b ≠ none) (x y : Byte) :
    ∃ i rest, decode cfg [b, x, y] = .ok (i, rest) := by
  obtain ⟨op, hop⟩ := Option.ne_none_iff_exists'.mp h
  simp only [decode, hop, takeOperands_of_two]

/-- An opcode byte whose handler is NOP is fetched as NOP, whatever follows it. -/
theorem fetch_of_decodeByte_nop {s : State} (h : s.cfg.decodeByte s.opcode = some .nop) : s.fetch = some .nop := by
  simp only [State.fetch, State.fetchBytes, decode, h, takeOperands, Op.format, Op.instr]

/-! ## Steps that fault -/

/-- No instruction faults, so a step faults exactly where a Running engine finds a byte with no handler. -/
theorem step_faults_iff (s : State) :
    (∃ r, step s = .fault r) ↔ s.runState = .running ∧ s.cfg.decodeByte s.opcode = none := by
  rw [← s.fetch_eq_none_iff]
  cases hrun : s.runState with
  | halted => simp [step_of_halted hrun]
  | running =>
    cases hfetch : s.fetch with
    | none => simp [step_of_no_fetch hrun hfetch]
    | some i =>
      obtain ⟨f, hf⟩ := exists_meaning i
      simp [step_of_fetch hrun hfetch, hf.exec_eq]

/-- Settles O29: a step faults where the default map has no handler, and that is where the byte is one of the 202. -/
theorem unmappedBytesAreRejected : Obligations.UnmappedBytesAreRejected := by
  refine ⟨by rfl, fun s hrun hmap => ?_, fun b x y => ?_⟩
  · rw [step_faults_iff, decodeByte_eq_none_iff, mappedOp_of_defaultMap hmap, default_mappedOp_eq_none_iff]
    exact and_iff_right hrun
  · have hnone : Config.default.decodeByte b = none ↔ unmappedByte b = true := by
      rw [decodeByte_eq_none_iff, default_mappedOp_eq_none_iff]
      exact and_iff_right rfl
    refine ⟨fun h => decode_of_no_handler (hnone.mpr h) _, fun h => decode_of_handler (fun hdec => ?_) x y⟩
    exact absurd (hnone.mp hdec) (by simp [h])

/-! ## Unmapped bytes under UNMAPPED_AS_NOP -/

/-- Under UNMAPPED_AS_NOP an unmapped byte is one NOP: it retires, and nothing else. -/
theorem step_of_unmapped_nop {s : State} (hfill : s.cfg.unmappedAsNop = true) (hrun : s.runState = .running)
    (hbyte : s.cfg.mappedOp s.opcode = none) : step s = .next (s.retire 1 4) := by
  have hdec : s.cfg.decodeByte s.opcode = some .nop := by rw [Config.decodeByte_of_unmapped hbyte, if_pos hfill]
  rw [step_of_fetch hrun (fetch_of_decodeByte_nop hdec), Meaning.nop.exec_eq]

theorem retires_retire (s : State) (len cost : Nat) : Retires len cost s (s.retire len cost) := by
  simp [Retires, BitVec.toNat_add]

/-- Settles O30: with UNMAPPED_AS_NOP every byte has a handler, and an unmapped one has NOP's. -/
theorem nopFillNeverFaults : Obligations.NopFillNeverFaults := by
  refine ⟨rfl, fun s hfill => ⟨fun r hr => ?_, fun hrun hbyte => ?_⟩⟩
  · obtain ⟨-, hdec⟩ := (step_faults_iff s).mp ⟨r, hr⟩
    obtain ⟨hoff, -⟩ := (decodeByte_eq_none_iff ..).mp hdec
    exact absurd hfill (by simp [hoff])
  · exact ⟨s.retire 1 4, step_of_unmapped_nop hfill hrun hbyte, retires_retire s 1 4, fun q _ => s.r8_retire 1 4 q,
      s.retire_sp 1 4, fun p _ => s.readByte_retire 1 4 p, s.retire_runState 1 4, s.retire_cfg 1 4⟩

end Sys2Proof.Proofs

/-! The control family (40_control_misc.md): NOP, STOP and HALT. What a step runs follows from the handler of its opcode
byte and the handler's format; what the three instructions keep is what `retire` keeps; a frame is followed up to the
step that enters Halted. -/

namespace Sys2Proof.Proofs

open Sys2Proof Sys2Proof.Machine Sys2Proof.Claims

/-! ## The instruction at PC, by the format of its handler -/

/-- A one-byte instruction leaves every byte after its opcode. -/
theorem decode_of_format1 {cfg : Config} {b : Byte} {op : Op} (h : cfg.decodeByte b = some op) (hop : op.format = .f1)
    (bytes : List Byte) : decode cfg (b :: bytes) = .ok (op.instr 0 0, bytes) := by
  simp only [decode, h, takeOperands, hop]

/-- A two-byte instruction takes the byte after its opcode. -/
theorem decode_of_format2 {cfg : Config} {b : Byte} {op : Op} (h : cfg.decodeByte b = some op) (hop : op.format = .f2)
    (lo : Byte) (bytes : List Byte) : decode cfg (b :: lo :: bytes) = .ok (op.instr lo 0, bytes) := by
  simp only [decode, h, takeOperands, hop]

theorem decodeByte_of_defaultMap {s : State} (hmap : DefaultMap s) {b : Byte} {op : Op}
    (h : Config.default.mappedOp b = some op) : s.cfg.decodeByte b = some op :=
  Config.decodeByte_of_mappedOp (by rw [mappedOp_of_defaultMap hmap, h])

theorem runs1_of_mappedOp {b : Byte} {op : Op} (h : Config.default.mappedOp b = some op) (hop : op.format = .f1) :
    Runs1 b (op.instr 0 0) := by
  rintro s hrun hmap rfl
  apply step_of_fetch hrun
  rw [State.fetch, State.fetchBytes, State.opcode, decode_of_format1 (decodeByte_of_defaultMap hmap h) hop]

theorem runs2_of_mappedOp {b : Byte} {op : Op} (h : Config.default.mappedOp b = some op) (hop : op.format = .f2) :
    Runs2 b fun lo => op.instr lo 0 := by
  rintro s hrun hmap rfl
  apply step_of_fetch hrun
  rw [State.fetch, State.fetchBytes, State.opcode, decode_of_format2 (decodeByte_of_defaultMap hmap h) hop]

/-! ## NOP and STOP -/

theorem keepsR8But_retire (s : State) (len cost : Nat) : KeepsR8But [] s (s.retire len cost) :=
  fun q _ => s.r8_retire len cost q

theorem keepsMemBut_retire (s : State) (len cost : Nat) : KeepsMemBut [] s (s.retire len cost) :=
  fun addr _ => s.readByte_retire len cost addr

theorem keepsEngine_retire (s : State) (len cost : Nat) : KeepsEngine s (s.retire len cost) :=
  ⟨s.retire_runState len cost, s.retire_cfg len cost⟩

/-- Settles O1: NOP is `retire 1 4`, and an unmapped byte has NOP's handler under UNMAPPED_AS_NOP. -/
theorem nopAdvancesPcOnly : Obligations.NopAdvancesPcOnly := by
  refine ⟨runs1_of_mappedOp (op := .nop) rfl rfl, fun cfg b hbyte hfill => ?_, fun s => ?_⟩
  · have hdec : cfg.decodeByte b = some .nop := by rw [Config.decodeByte_of_unmapped hbyte, if_pos hfill]
    exact decode_of_format1 hdec rfl []
  · exact ⟨s.retire 1 4, Meaning.nop.exec_eq s, retires_retire s 1 4, keepsR8But_retire s 1 4, s.retire_sp 1 4,
      keepsMemBut_retire s 1 4, keepsEngine_retire s 1 4⟩

/-- Settles O2: STOP is `retire 2 4`, whatever its second byte. -/
theorem stopSkipsTwoBytesOnly : Obligations.StopSkipsTwoBytesOnly := by
  refine ⟨runs2_of_mappedOp (op := .stop) rfl rfl, fun skipped s => ?_⟩
  exact ⟨s.retire 2 4, (Meaning.stop skipped).exec_eq s, retires_retire s 2 4, keepsR8But_retire s 2 4,
    s.retire_sp 2 4, keepsMemBut_retire s 2 4, keepsEngine_retire s 2 4⟩

/-! ## HALT -/

/-- The byte of HALT_OPCODE is mapped to HALT before OPCODE_MAP is looked at (30_encoding.md R64). -/
theorem decodeByte_of_haltOpcode {cfg : Config} {b : Byte} (h : cfg.haltOpcode = some b) :
    cfg.decodeByte b = some .halt :=
  Config.decodeByte_of_mappedOp (by rw [Config.mappedOp, if_pos h])

/-- A frame of a Halted engine runs no step (49_engine.md R189). -/
theorem runFrame_of_halted {s : State} (h : s.runState = .halted) : runFrame s = frameStop .halted s 0 := by
  rw [runFrame, if_pos h]

/-- A frame whose first step enters Halted stops there, without the frame's end (49_engine.md R187). -/
theorem runFrame_of_step_halted {s t : State} (hrun : s.runState = .running) (hbelow : s.frameCycles < s.cfg.budget)
    (hstep : step s = .next t) (ht : t.runState = .halted) : runFrame s = frameStop .halted t 1 := by
  obtain ⟨fuel, hfuel⟩ : ∃ fuel, s.cfg.budget = fuel + 1 := Nat.exists_eq_add_one.mpr (Nat.zero_lt_of_lt hbelow)
  have hloop : frameLoop (fuel + 1) s 0 = frameStop .halted t 1 := by
    simp only [frameLoop, hbelow, hstep, ht, if_true]
  rw [runFrame, if_neg (by simp [hrun]), hfuel, hloop]

/-- Settles O3: HALT is `halt` and then `retire 1 4`; the engine it leaves is Halted, so a frame stops with it. -/
theorem haltEntersHalted : Obligations.HaltEntersHalted := by
  refine ⟨rfl, runs1_of_mappedOp (op := .halt) rfl rfl,
    fun _ _ _ hbyte => decode_of_format1 (decodeByte_of_haltOpcode hbyte) rfl [],
    decode_of_no_handler (by decide) [], fun s => ?_⟩
  have hexec : exec .halt s = .next (s.halt.retire 1 4) := Meaning.halt.exec_eq s
  have hhalted : (s.halt.retire 1 4).runState = .halted := Meaning.halt.runState_eq s
  have hframe := runFrame_of_halted hhalted
  refine ⟨s.halt.retire 1 4, hexec, retires_retire s.halt 1 4, fun q _ => ?_, rfl, fun _ _ => rfl, hhalted, rfl,
    by rw [hframe, frameStop], by rw [hframe, frameStop], fun _ hact => apply_of_halted hhalted hact,
    fun hrun hbelow hfetch => ?_⟩
  · rw [State.r8_retire, State.r8_halt]
  · exact runFrame_of_step_halted hrun hbelow (by rw [step_of_fetch hrun hfetch, hexec]) hhalted

end Sys2Proof.Proofs

/-! The load and store family (41_load_store.md): the immediate loads, the loads and stores through a pair, and
LD (a16),SP. Each is a write of registers or of memory, then `retire`; so what each keeps is what its write keeps. -/

namespace Sys2Proof.Proofs

open Sys2Proof Sys2Proof.Machine Sys2Proof.Claims

/-! ## The instruction at PC: three-byte instructions, and the rows of the opcode table -/

/-- A three-byte instruction takes the two bytes after its opcode. -/
theorem decode_of_format3 {cfg : Config} {b : Byte} {op : Op} (h : cfg.decodeByte b = some op) (hop : op.format = .f3)
    (lo hi : Byte) (bytes : List Byte) : decode cfg (b :: lo :: hi :: bytes) = .ok (op.instr lo hi, bytes) := by
  simp only [decode, h, takeOperands, hop]

theorem runs3_of_mappedOp {b : Byte} {op : Op} {i : Word → Instr} (h : Config.default.mappedOp b = some op)
    (hop : op.format = .f3) (hinstr : ∀ lo hi, op.instr lo hi = i (wordOf hi lo)) : Runs3 b i := by
  rintro s hrun hmap rfl imm himm
  have hword : imm = wordOf (s.readByte (s.pc + 2)) (s.readByte (s.pc + 1)) := by
    apply BitVec.eq_of_toNat_eq
    rw [wordOf_toNat, himm, Nat.add_comm]
  rw [hword, ← hinstr]
  apply step_of_fetch hrun
  rw [State.fetch, State.fetchBytes, State.opcode, decode_of_format3 (decodeByte_of_defaultMap hmap h) hop]

theorem runs3_of_loadImm16Rows {op : Byte} {i : Word → Instr} {r : Reg16} (row : (op, i, r) ∈ loadImm16Rows) :
    Runs3 op i := by
  have hmapped : Config.default.mappedOp op = some (i 0).op := by fin_cases row <;> rfl
  have hformat : (i 0).op.format = .f3 := by fin_cases row <;> rfl
  exact runs3_of_mappedOp hmapped hformat fun lo hi => by fin_cases row <;> rfl

theorem runs2_of_loadImm8Rows {op : Byte} {i : Byte → Instr} {r : Reg8} (row : (op, i, r) ∈ loadImm8Rows) :
    Runs2 op i := by
  have hmapped : Config.default.mappedOp op = some (i 0).op := by fin_cases row <;> rfl
  have hformat : (i 0).op.format = .f2 := by fin_cases row <;> rfl
  have hinstr : (fun lo => (i 0).op.instr lo 0) = i := by fin_cases row <;> rfl
  rw [← hinstr]
  exact runs2_of_mappedOp hmapped hformat

theorem runs1_of_pairRows {op : Byte} {i : Instr} {r : Reg16} (row : (op, i, r) ∈ storeARows ++ loadARows) :
    Runs1 op i := by
  have hmapped : Config.default.mappedOp op = some i.op := by fin_cases row <;> rfl
  have hformat : i.op.format = .f1 := by fin_cases row <;> rfl
  have hinstr : i.op.instr 0 0 = i := by fin_cases row <;> rfl
  rw [← hinstr]
  exact runs1_of_mappedOp hmapped hformat

/-! ## Register writes that retire -/

theorem keepsR8But_retire_of {changed : List Reg8} {s u : State} (h : KeepsR8But changed s u) (len cost : Nat) :
    KeepsR8But changed s (u.retire len cost) :=
  fun q hq => (u.r8_retire len cost q).trans (h q hq)

/-- After a write that touched only registers, `retire` counts from the PC and the counter before the write. -/
theorem retire_of_keepsAllButData {s u : State} (h : KeepsAllButData s u) (len cost : Nat) :
    Retires len cost s (u.retire len cost) ∧ KeepsMemBut [] s (u.retire len cost) ∧
      KeepsEngine s (u.retire len cost) := by
  obtain ⟨hpc, hmem, hcycles, hengine⟩ := h
  refine ⟨?_, fun addr _ => ?_, hengine⟩
  · have hret := retires_retire u len cost
    rwa [Retires, hpc, hcycles] at hret
  · rw [State.readByte_retire, State.readByte, State.readByte, hmem]

/-- Settles O4: LD rr,d16 is `setR16` and then `retire 3 12`, which leaves every register. -/
theorem loadImmediateWord : Obligations.LoadImmediateWord := by
  intro op i r row
  refine ⟨runs3_of_loadImm16Rows row, fun d16 s => ?_⟩
  obtain ⟨hret, hmem, hengine⟩ := retire_of_keepsAllButData (keepsAllButData_setR16 s r d16) 3 12
  exact ⟨s.loadImm16 r d16, (Meaning.loadImm16 row d16).exec_eq s, holds16_setR16 s r d16, hret,
    keepsR8But_retire_of (keepsR8But_setR16 s r d16) 3 12, keepsSPUnless_setR16 s r d16, hmem, hengine⟩

/-- The whole effect of a load of one byte register, whatever byte is loaded. -/
theorem setR8_retire_effect (s : State) (r : Reg8) (v : Byte) (len cost : Nat) :
    ((s.setR8 r v).retire len cost).r8 r = v ∧ Retires len cost s ((s.setR8 r v).retire len cost) ∧
      KeepsR8But [r] s ((s.setR8 r v).retire len cost) ∧ ((s.setR8 r v).retire len cost).sp = s.sp ∧
      KeepsMemBut [] s ((s.setR8 r v).retire len cost) ∧ KeepsEngine s ((s.setR8 r v).retire len cost) := by
  obtain ⟨hret, hmem, hengine⟩ := retire_of_keepsAllButData (keepsAllButData_setR8 s r v) len cost
  refine ⟨?_, hret, keepsR8But_retire_of (keepsR8But_setR8 s r v) len cost, s.setR8_sp r v, hmem, hengine⟩
  rw [State.r8_retire, State.r8_setR8, if_pos rfl]

/-- Settles O5: LD r,d8 is `setR8` of the operand and then `retire 2 8`. -/
theorem loadImmediateByte : Obligations.LoadImmediateByte := by
  intro op i r row
  refine ⟨runs2_of_loadImm8Rows row, fun d8 s => ?_⟩
  exact ⟨s.loadImm8 r d8, (Meaning.loadImm8 row d8).exec_eq s, setR8_retire_effect s r d8 2 8⟩

/-- Settles O7: LD A,(rr) is `setR8` of A, with the byte at the pair's value, and then `retire 1 8`. -/
theorem loadAccumulatorThroughPair : Obligations.LoadAccumulatorThroughPair := by
  intro op i r row
  refine ⟨runs1_of_pairRows (List.mem_append_right _ row), fun s => ⟨r16_toNat s r, ?_⟩⟩
  exact ⟨s.loadA r, (Meaning.loadA row).exec_eq s, setR8_retire_effect s .a (s.readByte (s.r16 r)) 1 8⟩

/-! ## Stores -/

theorem readByte_writeByte_same {s : State} (hm : s.mem.wf = true) (addr : Word) (v : Byte) :
    (s.writeByte addr v).readByte addr = v := by
  rw [State.readByte_writeByte hm, if_pos rfl]

theorem keepsMemBut_writeByte {s : State} (hm : s.mem.wf = true) (addr : Word) (v : Byte) :
    KeepsMemBut [addr] s (s.writeByte addr v) := by
  intro p hp
  have hne : addr ≠ p := fun e => hp (e ▸ List.mem_singleton_self addr)
  rw [State.readByte_writeByte hm, if_neg hne]

/-- Settles O6: LD (rr),A is `writeByte` of A at the pair's value and then `retire 1 8`. -/
theorem storeAccumulatorThroughPair : Obligations.StoreAccumulatorThroughPair := by
  intro op i r row
  refine ⟨runs1_of_pairRows (List.mem_append_left _ row), fun s hm => ⟨r16_toNat s r, ?_⟩⟩
  have hread : (s.storeA r).readByte (s.r16 r) = s.a := readByte_writeByte_same hm (s.r16 r) s.a
  have hnext (h : s.r16 r = s.pc + 1) : (s.storeA r).opcode = s.a := by
    rw [h] at hread
    exact hread
  obtain ⟨hr8, hsp, -, hengine⟩ := s.storeA_effect r
  exact ⟨s.storeA r, (Meaning.storeA row).exec_eq s, hread, keepsMemBut_writeByte hm (s.r16 r) s.a, hnext,
    retires_retire (s.writeByte (s.r16 r) s.a) 1 8, fun q _ => hr8 q, hsp, hengine⟩

/-- The two bytes of a stored word, little-endian: the high byte's address, modulo 65,536, is never the low byte's. -/
theorem readByte_writeWord {s : State} (hm : s.mem.wf = true) (addr v : Word) :
    (s.writeWord addr v).readByte addr = loByte v ∧ (s.writeWord addr v).readByte (addr + 1) = hiByte v := by
  have hm' := State.wf_writeByte hm addr (loByte v)
  have hne : addr + 1 ≠ addr := by bv_omega
  refine ⟨?_, readByte_writeByte_same hm' (addr + 1) (hiByte v)⟩
  rw [State.writeWord, State.readByte_writeByte hm', if_neg hne, readByte_writeByte_same hm]

theorem keepsMemBut_writeWord {s : State} (hm : s.mem.wf = true) (addr v : Word) :
    KeepsMemBut [addr, addr + 1] s (s.writeWord addr v) := by
  intro p hp
  obtain ⟨hlo, hhi⟩ : p ∉ [addr] ∧ p ∉ [addr + 1] := by simpa using hp
  have hm' := State.wf_writeByte hm addr (loByte v)
  rw [State.writeWord, keepsMemBut_writeByte hm' _ _ p hhi, keepsMemBut_writeByte hm _ _ p hlo]

/-- Settles O8: LD (a16),SP is `writeWord` of SP at a16 and then `retire 3 20`. -/
theorem storeStackPointer : Obligations.StoreStackPointer := by
  refine ⟨runs3_of_mappedOp rfl rfl fun _ _ => rfl, fun a16 s hm => ?_⟩
  obtain ⟨hlo, hhi⟩ := readByte_writeWord hm a16 s.sp
  obtain ⟨hr8, hsp, -, hengine⟩ := s.storeSP_effect a16
  exact ⟨s.storeSP a16, (Meaning.storeSP a16).exec_eq s, (congrArg BitVec.toNat hlo).trans (loByte_toNat s.sp),
    (congrArg BitVec.toNat hhi).trans (hiByte_toNat s.sp), keepsMemBut_writeWord hm a16 s.sp,
    retires_retire (s.writeWord a16 s.sp) 3 20, fun q _ => hr8 q, hsp, hengine⟩

end Sys2Proof.Proofs

/-! The 8-bit arithmetic family (42_alu8.md): INC r, DEC r, RLCA and XOR A. Each writes F and then one register, and
retires; so what they keep is proved once, for any flags and any result. -/

namespace Sys2Proof.Proofs

open Sys2Proof Sys2Proof.Machine Sys2Proof.Claims

/-! ## What the four operations share -/

theorem runs1_of_alu8Rows {op : Byte} {i : Instr} {r : Reg8} (row : (op, i, r) ∈ inc8Rows ++ dec8Rows) :
    Runs1 op i := by
  have hmapped : Config.default.mappedOp op = some i.op := by fin_cases row <;> rfl
  have hformat : i.op.format = .f1 := by fin_cases row <;> rfl
  have hinstr : i.op.instr 0 0 = i := by fin_cases row <;> rfl
  rw [← hinstr]
  exact runs1_of_mappedOp hmapped hformat

/-- The frame of an operation that writes F, then one register, and retires after one byte and 4 cycles. -/
theorem frame_of_flags_and_result {s t : State} {r : Reg8} {flags v : Byte}
    (ht : t = ((s.setR8 .f flags).setR8 r v).retire 1 4) :
    Retires 1 4 s t ∧ KeepsR8But [r, .f] s t ∧ t.sp = s.sp ∧ KeepsMemBut [] s t ∧ KeepsEngine s t := by
  obtain ⟨-, hret, hkeep, hsp, hmem, hengine⟩ := setR8_retire_effect (s.setR8 .f flags) r v 1 4
  rw [← ht] at hret hkeep hsp hmem hengine
  refine ⟨hret, fun q hq => ?_, hsp, hmem, hengine⟩
  obtain ⟨hr, hf⟩ : q ∉ [r] ∧ q ∉ [Reg8.f] := by simpa using hq
  rw [hkeep q hr, keepsR8But_setR8 s .f flags q hf]

theorem flagsAre_iff_getFlag (t : State) (z n h c : Bool) :
    FlagsAre t z n h c ↔ getFlag t.f .z = z ∧ getFlag t.f .n = n ∧ getFlag t.f .h = h ∧ getFlag t.f .c = c :=
  Iff.rfl

/-! ## INC r and DEC r -/

theorem byte_eq_zero_eq_decide (x : Byte) : (x == 0) = decide (x.toNat = 0) := by
  rw [Bool.beq_eq_decide_eq]
  exact decide_eq_decide.mpr BitVec.toNat_inj.symm

/-- The decremented byte is 0 exactly where the old one was 1 (42_alu8.md R137). -/
theorem byte_sub_one_eq_zero_eq_decide (x : Byte) : (x - 1 == 0) = decide (x.toNat = 1) := by
  rw [byte_eq_zero_eq_decide]
  exact decide_eq_decide.mpr (by bv_omega)

theorem byte_sub_one_toNat (x : Byte) : ((x - 1).toNat : Int) = ((x.toNat : Int) - 1) % 256 := by
  have hone : (1 : Byte).toNat = 1 := rfl
  rw [BitVec.toNat_sub, hone]
  omega

theorem flagsAre_incFlags {t : State} {f old : Byte} (h : t.f = incFlags f old) :
    FlagsAre t (decide ((old + 1).toNat = 0)) false (decide (old.toNat % 16 + 1 > 15)) (getFlag f .c) := by
  rw [← byte_eq_zero_eq_decide, ← incHalf_eq]
  simp [flagsAre_iff_getFlag, h, incFlags, getFlag_putFlag]

theorem flagsAre_decFlags {t : State} {f old : Byte} (h : t.f = decFlags f old) :
    FlagsAre t (decide (old.toNat = 1)) true (decide (old.toNat % 16 = 0)) (getFlag f .c) := by
  rw [← byte_sub_one_eq_zero_eq_decide, ← decHalf_eq]
  simp [flagsAre_iff_getFlag, h, decFlags, getFlag_putFlag]

/-- Settles O9: INC r writes `incFlags` and the incremented byte, both from the old value, and retires. -/
theorem incrementByteRegister : Obligations.IncrementByteRegister := by
  intro op i r row
  refine ⟨runs1_of_alu8Rows (List.mem_append_left _ row), fun s => ?_⟩
  have hr : r ≠ .f := by fin_cases row <;> decide
  obtain ⟨hval, hf, -⟩ := s.incR8_effect r hr
  have hflags := flagsAre_incFlags hf
  rw [← hval] at hflags
  exact ⟨s.incR8 r, (Meaning.incR8 row).exec_eq s, by rw [hval, BitVec.toNat_add]; rfl, hflags,
    (Meaning.incR8 row).keepsLowF s, frame_of_flags_and_result rfl⟩

/-- Settles O10: DEC r writes `decFlags` and the decremented byte, both from the old value, and retires. -/
theorem decrementByteRegister : Obligations.DecrementByteRegister := by
  intro op i r row
  refine ⟨runs1_of_alu8Rows (List.mem_append_right _ row), fun s => ?_⟩
  have hr : r ≠ .f := by fin_cases row <;> decide
  obtain ⟨hval, hf, -⟩ := s.decR8_effect r hr
  exact ⟨s.decR8 r, (Meaning.decR8 row).exec_eq s, by rw [hval, byte_sub_one_toNat], flagsAre_decFlags hf,
    (Meaning.decR8 row).keepsLowF s, frame_of_flags_and_result rfl⟩

/-! ## RLCA: the rotate of A is `BitVec.rotateLeft` by one -/

theorem byte_getLsbD_seven (x : Byte) : x.getLsbD 7 = decide (128 ≤ x.toNat) := BitVec.msb_eq_decide x

theorem rotateLeftA_a (s : State) : s.rotateLeftA.a = s.a.rotateLeft 1 := by
  have hbit : (if s.a.getLsbD 7 then 1#8 else 0#8) = s.a >>> 7 := by
    have hlt := s.a.isLt
    apply BitVec.eq_of_toNat_eq
    rw [byte_getLsbD_seven, BitVec.toNat_ushiftRight, Nat.shiftRight_eq_div_pow]
    by_cases h : 128 ≤ s.a.toNat <;> simp [h] <;> omega
  rw [BitVec.rotateLeft_def, ← hbit]
  rfl

/-- The seven low bits move up and the old bit 7 fills bit 0, so the two parts add up without overlap. -/
theorem byte_rotateLeft_one_toNat (x : Byte) : (x.rotateLeft 1).toNat = 2 * x.toNat % 256 + x.toNat / 128 := by
  have hlt := x.isLt
  have hcarry : x.toNat / 128 < 2 ^ 1 := by omega
  calc (x.rotateLeft 1).toNat = x.toNat <<< 1 % 256 ||| x.toNat >>> 7 := BitVec.toNat_rotateLeft
    _ = (x.toNat % 128) <<< 1 ||| x.toNat / 128 := by
      rw [Nat.shiftRight_eq_div_pow, Nat.shiftLeft_eq, Nat.shiftLeft_eq]
      congr 1
      omega
    _ = (x.toNat % 128) <<< 1 + x.toNat / 128 := (Nat.shiftLeft_add_eq_or_of_lt hcarry _).symm
    _ = 2 * x.toNat % 256 + x.toNat / 128 := by rw [Nat.shiftLeft_eq]; omega

/-- A rotated byte's bit `k` is the bit `n` places below it, counted in a circle of eight. -/
theorem byte_getLsbD_rotateLeft (x : Byte) (n : Nat) {k : Nat} (hk : k < 8) :
    (x.rotateLeft n).getLsbD k = x.getLsbD ((k + (8 - n % 8)) % 8) := by
  rw [BitVec.getLsbD_rotateLeft]
  by_cases h : k < n % 8
  · simp only [h, decide_true, cond_true]
    congr 1
    omega
  · simp only [h, hk, decide_true, decide_false, cond_false, Bool.true_and]
    congr 1
    omega

theorem byte_rotateLeft_zero (x : Byte) : x.rotateLeft 0 = x := by
  apply BitVec.eq_of_getLsbD_eq
  intro k hk
  rw [byte_getLsbD_rotateLeft x 0 hk]
  congr 1
  omega

theorem byte_rotateLeft_succ (x : Byte) (n : Nat) : x.rotateLeft (n + 1) = (x.rotateLeft n).rotateLeft 1 := by
  apply BitVec.eq_of_getLsbD_eq
  intro k hk
  rw [byte_getLsbD_rotateLeft x (n + 1) hk, byte_getLsbD_rotateLeft _ 1 hk,
    byte_getLsbD_rotateLeft x n (Nat.mod_lt _ (by decide))]
  congr 1
  omega

theorem iterate_rotateLeftA_a (n : Nat) (s : State) : (State.rotateLeftA^[n] s).a = s.a.rotateLeft n := by
  induction n with
  | zero => exact (byte_rotateLeft_zero s.a).symm
  | succ n ih => rw [Function.iterate_succ_apply', rotateLeftA_a, ih, ← byte_rotateLeft_succ]

/-- The same instruction `n` times over is its operation `n` times over. -/
theorem Meaning.execAll_replicate {i : Instr} {f : State → State} (h : Meaning i f) (n : Nat) (s : State) :
    execAll (List.replicate n i) s = .next (f^[n] s) := by
  induction n generalizing s with
  | zero => rfl
  | succ n ih => simp only [List.replicate_succ, execAll, h.exec_eq, ih, Function.iterate_succ_apply]

theorem flagsAre_rlcaFlags {t : State} {f : Byte} {carry : Bool} (h : t.f = rlcaFlags f carry) :
    FlagsAre t false false false carry := by
  simp [flagsAre_iff_getFlag, h, rlcaFlags, getFlag_putFlag]

/-- Settles O11: RLCA rotates A as `BitVec.rotateLeft` by one does, so that eight of them rotate it by its width. -/
theorem rotateAccumulatorLeft : Obligations.RotateAccumulatorLeft := by
  refine ⟨runs1_of_mappedOp (op := .rlca) rfl rfl, fun s => ?_, fun s => ?_⟩
  · have hflags : FlagsAre s.rotateLeftA false false false (s.a.getLsbD 7) := flagsAre_rlcaFlags rfl
    rw [byte_getLsbD_seven] at hflags
    exact ⟨s.rotateLeftA, Meaning.rotateLeftA.exec_eq s, by rw [rotateLeftA_a, byte_rotateLeft_one_toNat], hflags,
      Meaning.rotateLeftA.keepsLowF s, frame_of_flags_and_result (r := .a) rfl⟩
  · refine ⟨State.rotateLeftA^[8] s, Meaning.rotateLeftA.execAll_replicate 8 s, ?_⟩
    calc (State.rotateLeftA^[8] s).a = s.a.rotateLeft 8 := iterate_rotateLeftA_a 8 s
      _ = s.a.rotateLeft 0 := BitVec.rotateLeft_mod_eq_rotateLeft.symm
      _ = s.a := byte_rotateLeft_zero s.a

/-! ## XOR A -/

theorem flagsAre_xorFlags {t : State} {f : Byte} (h : t.f = xorFlags f) : FlagsAre t true false false false := by
  simp [flagsAre_iff_getFlag, h, xorFlags, getFlag_putFlag]

/-- Settles O12: XOR A writes `xorFlags` and 0, and retires. -/
theorem xorClearsAccumulator : Obligations.XorClearsAccumulator := by
  refine ⟨runs1_of_mappedOp (op := .xorA) rfl rfl, fun s => ?_⟩
  exact ⟨s.clearA, Meaning.clearA.exec_eq s, rfl, flagsAre_xorFlags rfl, Meaning.clearA.keepsLowF s,
    frame_of_flags_and_result (r := .a) rfl⟩

end Sys2Proof.Proofs

/-! The 16-bit arithmetic family (43_alu16.md): INC rr, DEC rr and ADD HL,rr. Each writes a pair or SP and retires, so
what INC and DEC keep is what that write keeps; ADD HL,rr writes F before it. -/

namespace Sys2Proof.Proofs

open Sys2Proof Sys2Proof.Machine Sys2Proof.Claims

/-! ## What the three operations share -/

theorem runs1_of_alu16Rows {op : Byte} {i : Instr} {r : Reg16}
    (row : (op, i, r) ∈ inc16Rows ++ dec16Rows ++ addHLRows) : Runs1 op i := by
  have hruns := runs1_of_mappedOp (b := op) (op := i.op)
  fin_cases row <;> exact hruns rfl rfl

/-- The whole effect of a write of a pair or SP that retires, whatever word `w` is written; `v` is its number. -/
theorem setR16_retire_effect (s : State) (r : Reg16) {w : Word} {v : Nat} (hw : w.toNat = v) (len cost : Nat) :
    Holds16 ((s.setR16 r w).retire len cost) v r ∧ Retires len cost s ((s.setR16 r w).retire len cost) ∧
      KeepsR8But (halves r) s ((s.setR16 r w).retire len cost) ∧
      KeepsSPUnless r s ((s.setR16 r w).retire len cost) ∧ KeepsMemBut [] s ((s.setR16 r w).retire len cost) ∧
      KeepsEngine s ((s.setR16 r w).retire len cost) := by
  obtain ⟨hret, hmem, hengine⟩ := retire_of_keepsAllButData (keepsAllButData_setR16 s r w) len cost
  exact ⟨hw ▸ holds16_setR16 s r w, hret, keepsR8But_retire_of (keepsR8But_setR16 s r w) len cost,
    keepsSPUnless_setR16 s r w, hmem, hengine⟩

/-! ## INC rr and DEC rr -/

theorem word_sub_one_toNat (x : Word) : (x - 1).toNat = (((x.toNat : Int) - 1) % 65536).toNat := by
  have hone : (1 : Word).toNat = 1 := rfl
  rw [BitVec.toNat_sub, hone]
  omega

/-- Settles O13: INC rr is `setR16` of the old value plus one and then `retire 1 8`. -/
theorem incrementWordRegister : Obligations.IncrementWordRegister := by
  intro op i r row
  refine ⟨runs1_of_alu16Rows (List.mem_append_left _ (List.mem_append_left _ row)), fun s => ?_⟩
  have hval : (s.r16 r + 1).toNat = (value16 s r + 1) % 65536 := by
    rw [← r16_toNat]
    exact BitVec.toNat_add _ _
  exact ⟨s.incR16 r, (Meaning.incR16 row).exec_eq s, setR16_retire_effect s r hval 1 8⟩

/-- Settles O14: DEC rr is `setR16` of the old value minus one and then `retire 1 8`. -/
theorem decrementWordRegister : Obligations.DecrementWordRegister := by
  intro op i r row
  refine ⟨runs1_of_alu16Rows (List.mem_append_left _ (List.mem_append_right _ row)), fun s => ?_⟩
  have hval : (s.r16 r - 1).toNat = (((value16 s r : Int) - 1) % 65536).toNat := by
    rw [← r16_toNat, word_sub_one_toNat]
  exact ⟨s.decR16 r, (Meaning.decR16 row).exec_eq s, setR16_retire_effect s r hval 1 8⟩

/-! ## ADD HL,rr -/

theorem addCarry16_eq (a b : Word) : addCarry16 a b = decide (a.toNat + b.toNat ≥ 65536) := rfl

/-- H and C from the two carries, Z and N as they were (43_alu16.md R162, R163). -/
theorem flagsAre_addFlags16 {t : State} {f : Byte} {a b : Word} (h : t.f = addFlags16 f a b) :
    FlagsAre t (getFlag f .z) (getFlag f .n) (decide (a.toNat % 4096 + b.toNat % 4096 ≥ 4096))
      (decide (a.toNat + b.toNat ≥ 65536)) := by
  rw [← addHalf16_eq, ← addCarry16_eq]
  simp [flagsAre_iff_getFlag, h, addFlags16, getFlag_putFlag]

theorem byte_getLsbD_three (x : Byte) : x.getLsbD 3 = decide (8 ≤ x.toNat % 16) := by
  rw [BitVec.getLsbD, Nat.testBit_eq_decide_div_mod_eq]
  exact decide_eq_decide.mpr (by omega)

/-- A doubled HL carries out of bit 11 exactly where its bit 11, bit 3 of H, is set (43_alu16.md R160). -/
theorem doubled_hl_half_carry (s : State) :
    decide (value16 s .hl % 4096 + value16 s .hl % 4096 ≥ 4096) = s.h.getLsbD 3 := by
  have hl := s.l.isLt
  rw [byte_getLsbD_three, value16]
  exact decide_eq_decide.mpr (by omega)

/-- A doubled HL carries out of bit 15 exactly where its bit 15, bit 7 of H, is set (43_alu16.md R160). -/
theorem doubled_hl_carry (s : State) : decide (value16 s .hl + value16 s .hl ≥ 65536) = s.h.getLsbD 7 := by
  have hl := s.l.isLt
  rw [byte_getLsbD_seven, value16]
  exact decide_eq_decide.mpr (by omega)

/-- Settles O15: ADD HL,rr writes `addFlags16` and the sum, both from the old values, and retires. -/
theorem addIntoHL : Obligations.AddIntoHL := by
  intro op i r row
  refine ⟨runs1_of_alu16Rows (List.mem_append_right _ row), fun s => ?_⟩
  have hval : (s.r16 .hl + s.r16 r).toNat = (value16 s .hl + value16 s r) % 65536 := by
    rw [← r16_toNat, ← r16_toNat]
    exact BitVec.toNat_add _ _
  obtain ⟨-, hf, -, hsp, -⟩ := s.addHL_effect r
  have hflags := flagsAre_addFlags16 hf
  rw [r16_toNat, r16_toNat] at hflags
  obtain ⟨hsum, hret, hkeep, -, hmem, hengine⟩ :=
    setR16_retire_effect (s.setR8 .f (addFlags16 s.f (s.r16 .hl) (s.r16 r))) .hl hval 1 8
  refine ⟨s.addHL r, (Meaning.addHL row).exec_eq s, hsum, hflags, ?_, (Meaning.addHL row).keepsLowF s, hret,
    fun q hq => ?_, hsp, hmem, hengine⟩
  · rintro rfl
    obtain ⟨-, -, hhalf, hcarry⟩ := hflags
    exact ⟨hcarry.trans (doubled_hl_carry s), hhalf.trans (doubled_hl_half_carry s)⟩
  · obtain ⟨hhl, hf'⟩ : q ∉ halves .hl ∧ q ∉ [Reg8.f] := by simpa [halves, and_assoc] using hq
    exact (hkeep q hhl).trans (keepsR8But_setR8 s .f _ q hf')

end Sys2Proof.Proofs

/-! The branch family (44_branch.md): JR cc,e8 and JR e8. A jump taken is `jumpTo` of the target and one not taken is
`retire 2 8`; neither touches anything but PC and the cycle count. -/

namespace Sys2Proof.Proofs

open Sys2Proof Sys2Proof.Machine Sys2Proof.Claims

/-! ## The jump taken -/

/-- The displacement is taken modulo 65,536 before it is added; the target is the same as over the integers (R175). -/
theorem jumpTarget_toNat (p : Word) (e8 : Byte) :
    ((jumpTarget p e8).toNat : Int) = ((p.toNat : Int) + 2 + signed e8) % 65536 := by
  have htwo : (2 : Word).toNat = 2 := rfl
  have hdisp := displacement_toNat e8
  rw [jumpTarget, BitVec.toNat_add, BitVec.toNat_add, htwo]
  omega

theorem keeps_jumpTo (s : State) (target : Word) (cost : Nat) :
    KeepsR8But [] s (s.jumpTo target cost) ∧ (s.jumpTo target cost).sp = s.sp ∧
      KeepsMemBut [] s (s.jumpTo target cost) ∧ KeepsEngine s (s.jumpTo target cost) :=
  ⟨fun q _ => s.r8_jumpTo target cost q, s.jumpTo_sp target cost, fun addr _ => s.readByte_jumpTo target cost addr,
    s.jumpTo_runState target cost, s.jumpTo_cfg target cost⟩

/-- Settles O17: JR is `jumpTo` of the target, whatever the flags. -/
theorem unconditionalJump : Obligations.UnconditionalJump := by
  refine ⟨runs2_of_mappedOp (op := .jr) rfl rfl, fun e8 s => ?_⟩
  exact ⟨s.jumpAlways e8, (Meaning.jumpAlways e8).exec_eq s, jumpTarget_toNat s.pc e8,
    s.jumpTo_frameCycles (jumpTarget s.pc e8) 12, keeps_jumpTo s (jumpTarget s.pc e8) 12⟩

/-! ## JR cc -/

theorem runs2_of_jumpIfRows {op : Byte} {i : Byte → Instr} {bit : Nat} {taken : Bool}
    (row : (op, i, bit, taken) ∈ jumpIfRows) : Runs2 op i := by
  have hruns := runs2_of_mappedOp (b := op) (op := (i 0).op)
  fin_cases row <;> exact hruns rfl rfl

/-- The condition of each conditional jump is that its bit of F has its value (44_branch.md R176). -/
theorem exists_cond_of_jumpIfRows {op : Byte} {i : Byte → Instr} {bit : Nat} {taken : Bool}
    (row : (op, i, bit, taken) ∈ jumpIfRows) :
    ∃ cc, (i, cc) ∈ jumpConds ∧ ∀ f, condHolds f cc = true ↔ f.getLsbD bit = taken := by
  fin_cases row
  · exact ⟨.nz, by simp [jumpConds], fun _ => iff_of_eq (Bool.not_eq_true' _)⟩
  · exact ⟨.z, by simp [jumpConds], fun _ => Iff.rfl⟩
  · exact ⟨.nc, by simp [jumpConds], fun _ => iff_of_eq (Bool.not_eq_true' _)⟩
  · exact ⟨.c, by simp [jumpConds], fun _ => Iff.rfl⟩

theorem jumpIf_of_holds {s : State} {cc : Cond} (h : condHolds s.f cc = true) (e8 : Byte) :
    s.jumpIf cc e8 = s.jumpTo (jumpTarget s.pc e8) 12 := if_pos h

theorem jumpIf_of_not_holds {s : State} {cc : Cond} (h : ¬ condHolds s.f cc = true) (e8 : Byte) :
    s.jumpIf cc e8 = s.retire 2 8 := if_neg h

/-- Settles O16: JR cc is `jumpTo` of the target where the tested bit has the named value, else `retire 2 8`. -/
theorem conditionalJump : Obligations.ConditionalJump := by
  intro op i bit taken row
  refine ⟨runs2_of_jumpIfRows row, fun e8 s => ?_⟩
  obtain ⟨cc, hcc, hcond⟩ := exists_cond_of_jumpIfRows row
  have hexec : exec (i e8) s = .next (s.jumpIf cc e8) := (Meaning.jumpIf hcc e8).exec_eq s
  by_cases htaken : s.f.getLsbD bit = taken
  · rw [jumpIf_of_holds ((hcond s.f).mpr htaken)] at hexec
    exact ⟨s.jumpTo (jumpTarget s.pc e8) 12, hexec,
      fun _ => ⟨jumpTarget_toNat s.pc e8, s.jumpTo_frameCycles (jumpTarget s.pc e8) 12⟩, fun hnot => absurd htaken hnot,
      keeps_jumpTo s (jumpTarget s.pc e8) 12⟩
  · rw [jumpIf_of_not_holds (mt (hcond s.f).mp htaken)] at hexec
    exact ⟨s.retire 2 8, hexec, fun h => absurd h htaken, fun _ => retires_retire s 2 8, keepsR8But_retire s 2 8,
      s.retire_sp 2 8, keepsMemBut_retire s 2 8, keepsEngine_retire s 2 8⟩

end Sys2Proof.Proofs

/-! The engine family (49_engine.md): the frame. What an instruction costs, and that it keeps the configuration, comes
from `Meaning`; a frame is then followed in the shape of its loop, as the run of its steps. -/

namespace Sys2Proof.Proofs

open Sys2Proof Sys2Proof.Machine Sys2Proof.Claims

/-- Settles O47: `run_frame` tests for Halted before it enters its loop. -/
theorem haltedIsTerminal : Obligations.HaltedIsTerminal := fun _ h => runFrame_of_halted h

/-! ## Configuration and cost of an instruction -/

theorem Meaning.cfg_eq {i : Instr} {f : State → State} (h : Meaning i f) (s : State) : (f s).cfg = s.cfg := by
  cases h with
  | nop | stop | halt | storeA | loadA | storeSP | rotateLeftA | clearA | jumpAlways => rfl
  | loadImm16 row _ | loadImm8 row _ | incR8 row | decR8 row | incR16 row | decR16 row | addHL row =>
    fin_cases row <;> rfl
  | jumpIf => simp only [State.jumpIf_effect]

theorem costOf_jumpIf {i : Byte → Instr} {cc : Cond} (row : (i, cc) ∈ jumpConds) (s : State) (e8 : Byte) :
    costOf s (i e8) = if condHolds s.f cc then 12 else 8 := by
  have htaken : costOf s (i e8) = if (takenBy s (i e8)).isSome then 12 else 8 := by fin_cases row <;> rfl
  rw [htaken, takenBy_jumpIf row]
  split <;> rfl

/-- Each instruction adds what the cycles column of 70_reset_and_hazards.md R231 says. -/
theorem Meaning.frameCycles_eq {i : Instr} {f : State → State} (h : Meaning i f) (s : State) :
    (f s).frameCycles = s.frameCycles + costOf s i := by
  cases h with
  | nop | stop | halt | storeSP | rotateLeftA | clearA | jumpAlways => rfl
  | loadImm16 row _ | loadImm8 row _ | storeA row | loadA row | incR8 row | decR8 row | incR16 row | decR16 row
  | addHL row => fin_cases row <;> rfl
  | jumpIf row e8 => simp only [State.jumpIf_effect, costOf_jumpIf row]

theorem Meaning.costOf_mem {i : Instr} {f : State → State} (h : Meaning i f) (s : State) :
    costOf s i ∈ [4, 8, 12, 20] := by
  have four : 4 ∈ [4, 8, 12, 20] := by decide
  have eight : 8 ∈ [4, 8, 12, 20] := by decide
  have twelve : 12 ∈ [4, 8, 12, 20] := by decide
  have twenty : 20 ∈ [4, 8, 12, 20] := by decide
  cases h with
  | nop | stop | halt | rotateLeftA | clearA => exact four
  | incR8 row | decR8 row => fin_cases row <;> exact four
  | loadImm8 row _ | storeA row | loadA row | incR16 row | decR16 row | addHL row => fin_cases row <;> exact eight
  | loadImm16 row _ => fin_cases row <;> exact twelve
  | jumpAlways => exact twelve
  | storeSP => exact twenty
  | jumpIf row e8 =>
    rw [costOf_jumpIf row]
    split
    · exact twelve
    · exact eight

/-! ## One step -/

theorem cfg_of_step {s t : State} (h : step s = .next t) : t.cfg = s.cfg := by
  rcases step_next_cases h with ⟨-, rfl⟩ | ⟨-, _, -, hexec⟩
  · rfl
  · obtain ⟨f, hf, rfl⟩ := exec_next_cases hexec
    exact hf.cfg_eq s

theorem step_adds_cost {s t : State} (hrun : s.runState = .running) (h : step s = .next t) :
    ∃ cost ∈ [4, 8, 12, 20], t.frameCycles = s.frameCycles + cost := by
  rcases step_next_cases h with ⟨hhalted, -⟩ | ⟨-, i, -, hexec⟩
  · exact absurd (hrun.symm.trans hhalted) (by decide)
  · obtain ⟨f, hf, rfl⟩ := exec_next_cases hexec
    exact ⟨costOf s i, hf.costOf_mem s, hf.frameCycles_eq s⟩

/-- The smallest cost bounds how many steps fit below the budget (49_engine.md R188). -/
theorem step_adds_at_least_four {s t : State} (hrun : s.runState = .running) (h : step s = .next t) :
    s.frameCycles + 4 ≤ t.frameCycles := by
  obtain ⟨cost, hcost, ht⟩ := step_adds_cost hrun h
  have hfour : 4 ≤ cost := by fin_cases hcost <;> decide
  omega

/-- A step of a Running engine answers a next state or the decode fault of the byte at PC; it never refuses. -/
theorem step_running_cases {s : State} (hrun : s.runState = .running) :
    (∃ t, step s = .next t) ∨ step s = .fault (.decodeFault s.opcode s.pc) := by
  cases hfetch : s.fetch with
  | none => exact .inr (step_of_no_fetch hrun hfetch)
  | some i =>
    obtain ⟨f, hf⟩ := exists_meaning i
    exact .inl ⟨f s, by rw [step_of_fetch hrun hfetch, hf.exec_eq]⟩

theorem running_of_not_halted {s : State} (h : s.runState ≠ .halted) : s.runState = .running := by
  cases hr : s.runState with
  | running => rfl
  | halted => exact absurd hr h

/-! ## The frame loop, one equation per way it goes on (49_engine.md R185) -/

theorem frameLoop_of_full {s : State} (h : s.cfg.budget ≤ s.frameCycles) (fuel n : Nat) :
    frameLoop fuel s n = frameEnd s n := by
  cases fuel with
  | zero => rfl
  | succ fuel => rw [frameLoop, if_neg h.not_gt]

theorem frameLoop_of_fault {s : State} {r : Fault} (hbelow : s.frameCycles < s.cfg.budget) (h : step s = .fault r)
    (fuel n : Nat) : frameLoop (fuel + 1) s n = frameStop (.fault r) s.takeFault n := by
  simp only [frameLoop, hbelow, h, if_true]

theorem frameLoop_of_next_halted {s t : State} (hbelow : s.frameCycles < s.cfg.budget) (h : step s = .next t)
    (ht : t.runState = .halted) (fuel n : Nat) : frameLoop (fuel + 1) s n = frameStop .halted t (n + 1) := by
  simp only [frameLoop, hbelow, h, ht, if_true]

theorem frameLoop_of_next_running {s t : State} (hbelow : s.frameCycles < s.cfg.budget) (h : step s = .next t)
    (ht : t.runState = .running) (fuel n : Nat) : frameLoop (fuel + 1) s n = frameLoop fuel t (n + 1) := by
  simp only [frameLoop, hbelow, h, ht, if_true, if_false, reduceCtorEq]

/-! ## The steps of a frame -/

/-- `n` steps lead from `s` to `u`, each taken by a Running engine with the counter below the budget. -/
inductive FrameSteps : Nat → State → State → Prop where
  | zero (s : State) : FrameSteps 0 s s
  | succ {n : Nat} {s t u : State} (hrun : s.runState = .running) (hbelow : s.frameCycles < s.cfg.budget)
      (hstep : step s = .next t) (rest : FrameSteps n t u) : FrameSteps (n + 1) s u

theorem FrameSteps.steps {n : Nat} {s u : State} (h : FrameSteps n s u) : Steps n s u := by
  induction h with
  | zero s => exact (steps_zero s s).mpr rfl
  | succ _ _ hstep _ ih => exact (steps_succ ..).mpr ⟨_, hstep, ih⟩

theorem FrameSteps.before {n : Nat} {s u : State} (h : FrameSteps n s u) :
    ∀ k, k < n → ∃ v, Steps k s v ∧ v.runState = .running ∧ v.frameCycles < v.cfg.budget := by
  induction h with
  | zero s => exact fun _ hk => absurd hk (Nat.not_lt_zero _)
  | @succ n s t u hrun hbelow hstep _ ih =>
    rintro (_ | k) hk
    · exact ⟨s, (steps_zero s s).mpr rfl, hrun, hbelow⟩
    · obtain ⟨v, hv, hlast⟩ := ih k (Nat.lt_of_succ_lt_succ hk)
      exact ⟨v, (steps_succ ..).mpr ⟨t, hstep, hv⟩, hlast⟩

theorem FrameSteps.cfg_eq {n : Nat} {s u : State} (h : FrameSteps n s u) : u.cfg = s.cfg := by
  induction h with
  | zero => rfl
  | succ _ _ hstep _ ih => rw [ih, cfg_of_step hstep]

/-- All steps but the last cost at least 4 each and leave the counter below the budget. -/
theorem FrameSteps.cost_le {n : Nat} {s u : State} (h : FrameSteps n s u) :
    n = 0 ∨ s.frameCycles + 4 * n ≤ s.cfg.budget + 3 := by
  induction h with
  | zero => exact .inl rfl
  | succ hrun hbelow hstep _ ih =>
    have hcost := step_adds_at_least_four hrun hstep
    rw [cfg_of_step hstep] at ih
    omega

/-! ## How a frame ends -/

/-- The three ways a frame ends after `n` steps at `u`, with what it then returns (49_engine.md R186 to R188). -/
inductive FrameEnds (n : Nat) (u : State) : FrameResult → Prop where
  | complete (hrun : u.runState = .running) (hfull : u.cfg.budget ≤ u.frameCycles) : FrameEnds n u (frameEnd u n)
  | halted (hhalted : u.runState = .halted) : FrameEnds n u (frameStop .halted u n)
  | fault (hrun : u.runState = .running) (hbelow : u.frameCycles < u.cfg.budget)
      (hstep : step u = .fault (.decodeFault u.opcode u.pc)) :
      FrameEnds n u (frameStop (.fault (.decodeFault u.opcode u.pc)) u.takeFault n)

theorem FrameEnds.steps_eq {n : Nat} {u : State} {res : FrameResult} (h : FrameEnds n u res) : res.steps = n := by
  cases h <;> rfl

theorem FrameEnds.total_eq {n : Nat} {u : State} {res : FrameResult} (h : FrameEnds n u res) :
    res.total = u.frameCycles := by
  cases h <;> rfl

/-- Each step takes at least one unit off the distance to the budget, so the fuel does not run out below it. -/
theorem frameLoop_ends (fuel : Nat) {s : State} (n : Nat) (hrun : s.runState = .running)
    (hfuel : s.cfg.budget ≤ s.frameCycles + fuel) :
    ∃ m u, FrameSteps m s u ∧ FrameEnds (n + m) u (frameLoop fuel s n) := by
  induction fuel generalizing s n with
  | zero =>
    rw [frameLoop_of_full hfuel]
    exact ⟨0, s, .zero s, .complete hrun hfuel⟩
  | succ fuel ih =>
    by_cases hbelow : s.frameCycles < s.cfg.budget
    · rcases step_running_cases hrun with ⟨t, hstep⟩ | hstep
      · by_cases ht : t.runState = .halted
        · rw [frameLoop_of_next_halted hbelow hstep ht]
          exact ⟨1, t, .succ hrun hbelow hstep (.zero t), .halted ht⟩
        · have ht' := running_of_not_halted ht
          have hcost := step_adds_at_least_four hrun hstep
          obtain ⟨m, u, hsteps, hends⟩ := ih (n + 1) ht' (by rw [cfg_of_step hstep]; omega)
          rw [Nat.add_right_comm] at hends
          rw [frameLoop_of_next_running hbelow hstep ht']
          exact ⟨m + 1, u, .succ hrun hbelow hstep hsteps, hends⟩
      · rw [frameLoop_of_fault hbelow hstep]
        exact ⟨0, s, .zero s, .fault hrun hbelow hstep⟩
    · have hfull := Nat.le_of_not_lt hbelow
      rw [frameLoop_of_full hfull]
      exact ⟨0, s, .zero s, .complete hrun hfull⟩

/-- A frame of a Running engine is the run of its steps, ended in one of the three ways. -/
theorem runFrame_ends {s : State} (hrun : s.runState = .running) :
    ∃ n u, FrameSteps n s u ∧ FrameEnds n u (runFrame s) := by
  have hframe : runFrame s = frameLoop s.cfg.budget s 0 := by rw [runFrame, if_neg (by simp [hrun])]
  obtain ⟨n, u, hsteps, hends⟩ := frameLoop_ends s.cfg.budget 0 hrun (Nat.le_add_left ..)
  rw [← hframe, Nat.zero_add] at hends
  exact ⟨n, u, hsteps, hends⟩

/-- Settles O52: `runFrame_ends`, with what each way of ending returns. -/
theorem frameIsRunOfSteps : Obligations.FrameIsRunOfSteps := by
  refine fun s => ⟨fun hhalted => ?_, fun hrun => ?_⟩
  · rw [runFrame_of_halted hhalted]
    exact ⟨rfl, rfl, rfl⟩
  · obtain ⟨n, u, hsteps, hends⟩ := runFrame_ends hrun
    rw [hends.steps_eq]
    refine ⟨hsteps.before, u, hsteps.steps, hends.total_eq, ?_⟩
    generalize runFrame s = res at hends
    cases hends with
    | complete hu hfull => exact ⟨fun _ => ⟨hu, hfull, rfl, rfl⟩, nofun, nofun⟩
    | halted hu => exact ⟨nofun, fun _ => ⟨hu, rfl, rfl⟩, nofun⟩
    | fault hu hbelow hstep =>
      refine ⟨nofun, nofun, fun r hr => ?_⟩
      cases hr
      exact ⟨hu, hbelow, hstep, rfl, rfl⟩

/-- A frame takes at most `ceil(BUDGET / 4)` steps (49_engine.md R188). -/
theorem runFrame_steps_le (s : State) : (runFrame s).steps ≤ (s.cfg.budget + 3) / 4 := by
  cases hr : s.runState with
  | halted => simp [runFrame_of_halted hr, frameStop]
  | running =>
    obtain ⟨n, u, hsteps, hends⟩ := runFrame_ends hr
    have hcost := hsteps.cost_le
    rw [hends.steps_eq]
    omega

/-- Settles O49: the step bound, and then the result of each way of ending. -/
theorem frameHasThreeOutcomes : Obligations.FrameHasThreeOutcomes := by
  refine fun s => ⟨runFrame_steps_le s, ?_⟩
  cases hr : s.runState with
  | halted =>
    rw [runFrame_of_halted hr]
    exact .inr (.inr ⟨rfl, rfl, hr⟩)
  | running =>
    obtain ⟨n, u, hsteps, hends⟩ := runFrame_ends hr
    rw [← hsteps.cfg_eq]
    generalize runFrame s = res at hends
    cases hends with
    | complete hu hfull => exact .inl ⟨rfl, rfl, rfl, hu, hfull⟩
    | halted hu => exact .inr (.inr ⟨rfl, rfl, hu⟩)
    | fault => exact .inr (.inl ⟨u.opcode, u.pc, rfl, rfl, rfl, rfl, rfl⟩)

end Sys2Proof.Proofs

/-! The exceptions family (60_exceptions.md): the decode fault, as a step raises it and as a frame returns it, and the
check of the configuration at construction. -/

namespace Sys2Proof.Proofs

open Sys2Proof Sys2Proof.Machine Sys2Proof.Claims

/-! ## The decode fault -/

/-- A Running engine raises the decode fault at a byte that has no handler (60_exceptions.md R201). -/
theorem step_of_no_handler {s : State} (hrun : s.runState = .running) (hnone : s.cfg.decodeByte s.opcode = none) :
    step s = .fault (.decodeFault s.opcode s.pc) :=
  step_of_no_fetch hrun (s.fetch_eq_none_iff.mpr hnone)

/-- A frame whose first step faults returns that fault and the state taking it leaves, without the frame's end
(49_engine.md R187). -/
theorem runFrame_of_step_fault {s : State} {r : Fault} (hrun : s.runState = .running)
    (hbelow : s.frameCycles < s.cfg.budget) (hstep : step s = .fault r) :
    runFrame s = frameStop (.fault r) s.takeFault 0 := by
  obtain ⟨fuel, hfuel⟩ : ∃ fuel, s.cfg.budget = fuel + 1 := Nat.exists_eq_add_one.mpr (Nat.zero_lt_of_lt hbelow)
  rw [runFrame, if_neg (by simp [hrun]), hfuel, frameLoop_of_fault hbelow hstep]

/-- Settles O33: the fault is the decode fault of the byte at PC, and taking it is `halt`. -/
theorem decodeFaultHaltsOnly : Obligations.DecodeFaultHaltsOnly := by
  intro s hrun hnone
  have hstep := step_of_no_handler hrun hnone
  exact ⟨.decodeFault s.opcode s.pc, hstep, rfl, rfl, fun hbelow => runFrame_of_step_fault hrun hbelow hstep⟩

/-! ## The configuration error -/

theorem construct_of_budget_lt_one {budget : Int} (h : budget < 1) (fill : Bool) (map : OpcodeMap)
    (halt : Option Byte) : construct budget fill map halt = .error .configurationError :=
  if_pos h

theorem construct_of_one_le_budget {budget : Int} (h : 1 ≤ budget) (fill : Bool) (map : OpcodeMap)
    (halt : Option Byte) : construct budget fill map halt =
      .ok (State.create { budget := budget.toNat, unmappedAsNop := fill, opcodeMap := map, haltOpcode := halt }) :=
  if_neg h.not_gt

/-- Settles O42: one equation of `construct` per side of the check; a budget that passes is not negative, so the
created engine holds it unchanged. -/
theorem configurationErrorIffBudgetBelowOne : Obligations.ConfigurationErrorIffBudgetBelowOne := by
  refine fun budget fill map halt => ⟨fun hlow => construct_of_budget_lt_one hlow fill map halt, fun hone => ?_⟩
  have hbudget : (budget.toNat : Int) = budget := Int.toNat_of_nonneg (by omega)
  exact ⟨_, construct_of_one_le_budget hone fill map halt, hbudget, rfl, rfl, rfl, rfl⟩

end Sys2Proof.Proofs

/-! The reset and hazards family (70_reset_and_hazards.md): external reset, the loader, and the cost and length table.
The loader is `Memory.writeBytes` at address 0, so what it leaves is one fact about reading after a sequence of
writes. -/

namespace Sys2Proof.Proofs

open Sys2Proof Sys2Proof.Machine Sys2Proof.Claims

/-! ## The created engine -/

theorem r8_create (cfg : Config) (r : Reg8) : (State.create cfg).r8 r = 0 := by cases r <;> rfl

/-- A created engine lists no byte, so every address reads the reset contents (10_state.md R30). -/
theorem readByte_create (cfg : Config) (addr : Word) : (State.create cfg).readByte addr = 0 := rfl

theorem mem_wf_create (cfg : Config) : (State.create cfg).mem.wf = true := rfl

/-- Settles O41: external reset is creation with the configuration the engine has. -/
theorem externalResetRecreates : Obligations.ExternalResetRecreates :=
  fun s => ⟨rfl, r8_create s.cfg, rfl, rfl, readByte_create s.cfg, rfl, rfl⟩

/-! ## The loader -/

/-- Reading after writing a sequence from `a`: the sequence's byte where it has one, every other byte as before. -/
theorem read_writeBytes : ∀ (vs : List Byte) (a b : Nat) {m : Memory}, a + vs.length ≤ 65536 → m.wf = true →
    Memory.read b (Memory.writeBytes a vs m) = if a ≤ b then (vs[b - a]?).getD (Memory.read b m) else Memory.read b m
  | [], a, b, m, _, _ => by simp [Memory.writeBytes]
  | v :: vs, a, b, m, hlen, hm => by
    rw [List.length_cons] at hlen
    have hm' : Memory.wf (Memory.write a v m) = true := Memory.wf_write v (by omega) hm
    rw [Memory.writeBytes, read_writeBytes vs (a + 1) b (by omega) hm', Memory.read_write a b v hm]
    rcases Nat.lt_trichotomy b a with hlt | rfl | hgt
    · rw [if_neg (by omega), if_neg (by omega), if_neg (by omega)]
    · simp
    · have hsub : b - a = b - (a + 1) + 1 := by omega
      rw [if_pos (by omega), if_neg (by omega), if_pos (by omega), hsub, List.getElem?_cons_succ]

theorem load_of_fits {image : List Byte} (h : image.length ≤ 65536) (s : State) :
    s.load image = .ok { s with mem := Memory.writeBytes 0 image s.mem } :=
  if_pos h

theorem load_of_too_long {image : List Byte} (h : 65536 < image.length) (s : State) :
    s.load image = .error .imageTooLong :=
  if_neg h.not_ge

/-- What the loader answers, taken apart: the image fitted, and memory is all it wrote (R222). -/
theorem load_ok_cases {s t : State} {image : List Byte} (h : s.load image = .ok t) :
    image.length ≤ 65536 ∧ t = { s with mem := Memory.writeBytes 0 image s.mem } := by
  by_cases hlen : image.length ≤ 65536
  · rw [load_of_fits hlen] at h
    injection h with e
    exact ⟨hlen, e.symm⟩
  · rw [load_of_too_long (Nat.lt_of_not_le hlen)] at h
    cases h

theorem readByte_of_load {s t : State} {image : List Byte} (hm : s.mem.wf = true) (h : s.load image = .ok t)
    (addr : Word) : t.readByte addr = (image[addr.toNat]?).getD (s.readByte addr) := by
  obtain ⟨hlen, rfl⟩ := load_ok_cases h
  have hread := read_writeBytes image 0 addr.toNat (by omega) hm
  rwa [if_pos (Nat.zero_le _), Nat.sub_zero] at hread

/-- Settles O43: an image that fits is read back by `readByte_of_load`; after reset PC and every byte are 0, so the
first opcode is the image's byte 0. -/
theorem loaderWritesImage : Obligations.LoaderWritesImage := by
  intro s image hm
  refine ⟨fun hfits => ?_, fun hlong => load_of_too_long hlong s, fun t hload => ?_⟩
  · have hload := load_of_fits hfits s
    exact ⟨_, hload, readByte_of_load hm hload, rfl⟩
  · have hread := readByte_of_load (mem_wf_create s.cfg) hload t.pc
    obtain ⟨-, rfl⟩ := load_ok_cases hload
    exact hread

/-! ## Costs and lengths -/

/-- The length of an instruction's format is the length column of R231. -/
theorem Meaning.length_eq {i : Instr} {f : State → State} (h : Meaning i f) : i.length = lengthOf i := by
  cases h with
  | nop | stop | halt | storeSP | rotateLeftA | clearA | jumpAlways => rfl
  | loadImm16 row _ | loadImm8 row _ | storeA row | loadA row | incR8 row | decR8 row | incR16 row | decR16 row
  | addHL row | jumpIf row _ => fin_cases row <;> rfl

/-- Under UNMAPPED_AS_NOP an unmapped byte is the one-byte instruction NOP (30_encoding.md R69). -/
theorem decode_of_unmapped_nop {cfg : Config} {b : Byte} (hbyte : cfg.mappedOp b = none)
    (hfill : cfg.unmappedAsNop = true) (rest : List Byte) : decode cfg (b :: rest) = .ok (.nop, rest) := by
  have hdec : cfg.decodeByte b = some .nop := by rw [Config.decodeByte_of_unmapped hbyte, if_pos hfill]
  exact decode_of_format1 hdec rfl rest

/-- Settles O23: cost and length of every instruction by its shared operation; taking a fault is `halt`, which adds
nothing. -/
theorem cycleCosts : Obligations.CycleCosts := by
  refine ⟨fun i s t h => ?_, fun i => ?_, fun cfg b hbyte hfill => decode_of_unmapped_nop hbyte hfill [],
    fun s => s.halt_frameCycles⟩
  · obtain ⟨f, hf, rfl⟩ := exec_next_cases h
    exact ⟨hf.frameCycles_eq s, hf.costOf_mem s⟩
  · obtain ⟨f, hf⟩ := exists_meaning i
    exact hf.length_eq

end Sys2Proof.Proofs

/-! Decoder and encoder (30_encoding.md): the round trips. Encoding then decoding rests on the handler's byte being
mapped to it, which a sound configuration gives each handler it names; decoding then encoding rests on the default map
having one row a handler. -/

namespace Sys2Proof.Proofs

open Sys2Proof Sys2Proof.Machine Sys2Proof.Claims

/-! ## Operand bytes -/

/-- Every instruction's operand bytes are those its format counts (30_encoding.md R61). -/
theorem encodedLength (i : Instr) : Laws.EncodedLength.Statement i := by cases i <;> rfl

/-- The operand bytes of an instruction, whatever follows, are read back as its operands. -/
theorem takeOperands_operandBytes (i : Instr) (rest : List Byte) :
    takeOperands i.op (i.operandBytes ++ rest) = .ok (i, rest) := by
  cases i with
  | ldBCd16 w | ldDEd16 w | ldHLd16 w | ldSPd16 w | ldAtA16SP w =>
    simp [takeOperands, Instr.op, Instr.operandBytes, Op.format, Op.instr]
  | _ => rfl

theorem op_instr (lo hi : Byte) (op : Op) : (op.instr lo hi).op = op := by cases op <;> rfl

/-- Of the two bytes after its opcode an instruction keeps as many as its format has. -/
theorem operandBytes_instr (lo hi : Byte) (op : Op) :
    (op.instr lo hi).operandBytes = [lo, hi].take (op.format.length - 1) := by
  cases op with
  | ldBCd16 | ldDEd16 | ldHLd16 | ldSPd16 | ldAtA16SP =>
    simp [Op.instr, Instr.operandBytes, Op.format, Format.length]
  | _ => rfl

/-- What `takeOperands` answers, taken apart: the handler is the instruction's, and only its operand bytes are gone. -/
theorem takeOperands_ok {op : Op} {bytes rest : List Byte} {i : Instr} (h : takeOperands op bytes = .ok (i, rest)) :
    i.op = op ∧ bytes = i.operandBytes ++ rest := by
  unfold takeOperands at h
  split at h
  case h_1 hop | h_2 hop | h_3 hop =>
    cases h
    exact ⟨op_instr .., by simp [operandBytes_instr, hop, Format.length]⟩
  all_goals cases h

/-! ## The opcode byte of a handler -/

theorem lookupByte_of_mem {m : OpcodeMap} {b : Byte} {op : Op} (hm : m.distinct = true) (h : (b, op) ∈ m) :
    lookupByte b m = some op := by
  induction m with
  | nil => cases h
  | cons row rest ih =>
    simp only [OpcodeMap.distinct, Bool.and_eq_true, List.all_eq_true, bne_iff_ne] at hm
    obtain ⟨hfirst, hrest⟩ := hm
    rcases List.mem_cons.mp h with rfl | h
    · exact if_pos rfl
    · rw [lookupByte, if_neg (hfirst _ h).symm, ih hrest h]

theorem mem_of_lookupByte {m : OpcodeMap} {b : Byte} {op : Op} (h : lookupByte b m = some op) : (b, op) ∈ m := by
  induction m with
  | nil => cases h
  | cons row rest ih =>
    rw [lookupByte] at h
    split at h
    · next hkey =>
      cases h
      exact hkey ▸ List.mem_cons_self
    · exact List.mem_cons_of_mem _ (ih h)

/-- In a sound configuration a row of a handler other than HALT is what its byte is mapped by: no other row has the
byte, and HALT_OPCODE is not it. -/
theorem mappedOp_of_row {cfg : Config} (hcfg : cfg.wf = true) {b : Byte} {op : Op} (h : (b, op) ∈ cfg.opcodeMap)
    (hop : op ≠ .halt) : cfg.mappedOp b = some op := by
  simp only [Config.wf, Config.haltFree, Bool.and_eq_true, List.all_eq_true] at hcfg
  obtain ⟨⟨-, hdistinct⟩, hfree⟩ := hcfg
  have hhalt : cfg.haltOpcode ≠ some b := by simpa [hop] using hfree _ h
  simp only [Config.mappedOp, if_neg hhalt, lookupByte_of_mem hdistinct h, if_neg hop]

/-- The encoder finds a byte where the rows have one that is mapped to the handler. -/
theorem exists_firstByteOf {cfg : Config} {op : Op} {m : OpcodeMap} {row : Byte × Op} (h : row ∈ m)
    (hmapped : cfg.mappedOp row.1 = some op) : ∃ b, firstByteOf cfg op m = some b := by
  induction m with
  | nil => cases h
  | cons first rest ih =>
    rw [firstByteOf]
    split
    · exact ⟨_, rfl⟩
    · next hfirst =>
      rcases List.mem_cons.mp h with rfl | h
      · exact absurd hmapped hfirst
      · exact ih h

theorem exists_byteOf {cfg : Config} (hcfg : cfg.wf = true) {op : Op} (h : cfg.names op = true) :
    ∃ b, cfg.byteOf op = some b := by
  unfold Config.names at h
  unfold Config.byteOf
  split at h
  · next hop =>
    rw [if_pos hop]
    exact Option.isSome_iff_exists.mp h
  · next hop =>
    simp only [List.any_eq_true, beq_iff_eq] at h
    obtain ⟨⟨b, _⟩, hrow, rfl⟩ := h
    rw [if_neg hop]
    exact exists_firstByteOf hrow (mappedOp_of_row hcfg hrow hop)

theorem encode_of_byteOf {cfg : Config} {i : Instr} {b : Byte} (h : cfg.byteOf i.op = some b) :
    encode cfg i = some (b :: i.operandBytes) := by
  simp only [encode, h]

/-- Settles O27: a handler the configuration names has a byte, the byte is mapped back to the handler, and the operand
bytes are read back. -/
theorem decodeAfterEncode : Obligations.DecodeAfterEncode := by
  intro cfg i rest hcfg hi
  obtain ⟨b, hb⟩ := exists_byteOf hcfg hi
  obtain ⟨f, hf⟩ := exists_meaning i
  refine ⟨b :: i.operandBytes, encode_of_byteOf hb, ?_, ?_⟩
  · rw [List.length_cons, encodedLength i, hf.length_eq]
  · rw [List.cons_append, decode, Config.decodeByte_of_mappedOp (Config.byteOf_mapped hb)]
    exact takeOperands_operandBytes i rest

/-! ## The default configuration -/

/-- What the decoder answers, taken apart: an opcode byte with the instruction's handler, its operand bytes, and the
rest. -/
theorem decode_ok {cfg : Config} {bytes rest : List Byte} {i : Instr} (h : decode cfg bytes = .ok (i, rest)) :
    ∃ b, cfg.decodeByte b = some i.op ∧ bytes = b :: (i.operandBytes ++ rest) := by
  unfold decode at h
  split at h
  · cases h
  · next b operands =>
    split at h
    · cases h
    · next op hop =>
      obtain ⟨rfl, rfl⟩ := takeOperands_ok h
      exact ⟨b, hop, rfl⟩

/-- No handler has two rows in the default map: the encoder writes the byte of each row for its handler. -/
theorem default_byteOf_of_row : ∀ row ∈ defaultOpcodeMap, Config.default.byteOf row.2 = some row.1 := by decide

theorem default_row_of_mappedOp {b : Byte} {op : Op} (h : Config.default.mappedOp b = some op) :
    (b, op) ∈ defaultOpcodeMap := by
  unfold Config.mappedOp at h
  split at h
  · next hhalt =>
    cases h
    cases hhalt
    decide
  · split at h
    · next op' hrow =>
      split at h <;> cases h
      exact mem_of_lookupByte hrow
    · cases h

/-- Without UNMAPPED_AS_NOP a byte decodes to the handler it is mapped to, or to nothing. -/
theorem default_byteOf_of_decodeByte {b : Byte} {op : Op} (h : Config.default.decodeByte b = some op) :
    Config.default.byteOf op = some b := by
  cases hmapped : Config.default.mappedOp b with
  | none =>
    rw [Config.decodeByte_of_unmapped hmapped] at h
    cases h
  | some op' =>
    rw [Config.decodeByte_of_mappedOp hmapped] at h
    cases h
    exact default_byteOf_of_row _ (default_row_of_mappedOp hmapped)

theorem default_names (op : Op) : Config.default.names op = true := by cases op <;> rfl

/-- Settles O28: the opcode byte is the one the encoder writes for the handler, and the decoder takes no other byte than
the operand bytes. -/
theorem encodeAfterDecode : Obligations.EncodeAfterDecode := by
  refine ⟨fun bytes i rest h => ?_, fun i => default_names i.op⟩
  obtain ⟨b, hb, rfl⟩ := decode_ok h
  exact ⟨b :: i.operandBytes, encode_of_byteOf (default_byteOf_of_decodeByte hb), rfl⟩

/-- Settles O26: each word's opcode byte is looked up in the table of R66. -/
theorem specWordsDecode : Obligations.SpecWordsDecode := by
  refine ⟨?_, ?_, ?_, ?_, ?_, ?_, ?_, ?_, ?_, ?_⟩ <;> rfl

end Sys2Proof.Proofs

/-! Rules over all instructions and over the step: flags and memory an instruction leaves alone, what a step can answer,
and the invariant (10_state.md, 20_memory.md, 49_engine.md, 60_exceptions.md). What every instruction does comes from
`Meaning`. -/

namespace Sys2Proof.Proofs

open Sys2Proof Sys2Proof.Machine Sys2Proof.Claims

/-! ## Completion -/

/-- Settles O25: an instruction answers what its shared operation makes of the state. -/
theorem everyInstructionCompletes : Obligations.EveryInstructionCompletes := by
  intro i s
  obtain ⟨f, hf⟩ := exists_meaning i
  exact ⟨f s, hf.exec_eq s⟩

/-! ## Bits of F -/

theorem getLsbD_putFlag_of_not_mem {bits : List Nat} {n : Nat} (hn : n < 8) (hnot : n ∉ bits) {k : Flag}
    (hk : flagBit k ∈ bits) (f : Byte) (v : Bool) : (putFlag f k v).getLsbD n = f.getLsbD n := by
  have hne : n ≠ flagBit k := fun e => hnot (e ▸ hk)
  rw [getLsbD_putFlag f k v n hn, if_neg hne]

/-- Each instruction puts no flag but those R24 names for it. -/
theorem Meaning.keepsUnnamedFlags {i : Instr} {f : State → State} (h : Meaning i f) (s : State) {n : Nat} (hn : n < 8)
    (hnot : n ∉ flagBitsWritten i) : (f s).f.getLsbD n = s.f.getLsbD n := by
  cases h with
  | nop | stop | halt | storeA | loadA | storeSP | jumpAlways => rfl
  | loadImm16 row _ | loadImm8 row _ | incR16 row | decR16 row => fin_cases row <;> rfl
  | jumpIf => simp only [State.jumpIf_effect]
  | @incR8 _ _ r row =>
    have hr : r ≠ .f := by fin_cases row <;> decide
    have hbits : flagBitsWritten i = [7, 6, 5] := by fin_cases row <;> rfl
    obtain ⟨-, hf, -⟩ := s.incR8_effect r hr
    rw [hbits] at hnot
    simp (disch := decide) only [hf, incFlags, getLsbD_putFlag_of_not_mem hn hnot]
  | @decR8 _ _ r row =>
    have hr : r ≠ .f := by fin_cases row <;> decide
    have hbits : flagBitsWritten i = [7, 6, 5] := by fin_cases row <;> rfl
    obtain ⟨-, hf, -⟩ := s.decR8_effect r hr
    rw [hbits] at hnot
    simp (disch := decide) only [hf, decFlags, getLsbD_putFlag_of_not_mem hn hnot]
  | @addHL _ _ r row =>
    have hbits : flagBitsWritten i = [5, 4] := by fin_cases row <;> rfl
    obtain ⟨-, hf, -⟩ := s.addHL_effect r
    rw [hbits] at hnot
    simp (disch := decide) only [hf, addFlags16, getLsbD_putFlag_of_not_mem hn hnot]
  | rotateLeftA =>
    simp (disch := decide) only [State.rotateLeftA, rlcaFlags, State.retire_f, getLsbD_putFlag_of_not_mem hn hnot]
  | clearA =>
    simp (disch := decide) only [State.clearA, xorFlags, State.retire_f, getLsbD_putFlag_of_not_mem hn hnot]

/-- Settles O19: `Meaning.keepsUnnamedFlags`. -/
theorem unnamedFlagsAreKept : Obligations.UnnamedFlagsAreKept := by
  intro i s t h n hn hnot
  obtain ⟨f, hf, rfl⟩ := exec_next_cases h
  exact hf.keepsUnnamedFlags s hn hnot

/-! ## Memory -/

/-- Settles O36: the host's write is `writeByte` of the integer modulo 256, which touches the one field. -/
theorem memoryWriteChangesOneByte : Obligations.MemoryWriteChangesOneByte := by
  intro s addr v hm
  refine ⟨?_, keepsMemBut_writeByte hm addr _, rfl⟩
  rw [State.hostWriteByte, readByte_writeByte_same hm, ofInt8_toNat]

/-- What an instruction makes of memory: a byte or a word stored at the addresses R47 names, or nothing. -/
theorem Meaning.mem_cases {i : Instr} {f : State → State} (h : Meaning i f) (s : State) :
    (∃ addr v, storedAt s i = [addr] ∧ (f s).mem = (s.writeByte addr v).mem) ∨
    (∃ addr v, storedAt s i = [addr, addr + 1] ∧ (f s).mem = (s.writeWord addr v).mem) ∨
    (storedAt s i = [] ∧ (f s).mem = s.mem) := by
  cases h with
  | @storeA _ _ r row => exact .inl ⟨s.r16 r, s.a, by fin_cases row <;> rfl, rfl⟩
  | storeSP a16 => exact .inr (.inl ⟨a16, s.sp, rfl, rfl⟩)
  | nop | stop | halt | rotateLeftA | clearA | jumpAlways => exact .inr (.inr ⟨rfl, rfl⟩)
  | loadImm16 row _ | loadImm8 row _ | loadA row | incR8 row | decR8 row | incR16 row | decR16 row | addHL row =>
    fin_cases row <;> exact .inr (.inr ⟨rfl, rfl⟩)
  | jumpIf row e8 => exact .inr (.inr ⟨by fin_cases row <;> rfl, by simp only [State.jumpIf_effect]⟩)

theorem keepsMemBut_of_mem_eq {stored : List Word} {s t u : State} (hmem : t.mem = u.mem)
    (h : KeepsMemBut stored s u) : KeepsMemBut stored s t := by
  intro addr haddr
  rw [← h addr haddr, State.readByte, State.readByte, hmem]

/-- Settles O22: `Meaning.mem_cases`, with what a write of a byte and of a word keep. -/
theorem memoryChangesOnlyWhereStored : Obligations.MemoryChangesOnlyWhereStored := by
  intro i s t hm h
  obtain ⟨f, hf, rfl⟩ := exec_next_cases h
  rcases hf.mem_cases s with ⟨addr, v, hstored, hmem⟩ | ⟨addr, v, hstored, hmem⟩ | ⟨hstored, hmem⟩ <;> rw [hstored]
  · exact keepsMemBut_of_mem_eq hmem (keepsMemBut_writeByte hm addr v)
  · exact keepsMemBut_of_mem_eq hmem (keepsMemBut_writeWord hm addr v)
  · exact keepsMemBut_of_mem_eq hmem fun _ _ => rfl

theorem Meaning.mem_wf {i : Instr} {f : State → State} (h : Meaning i f) {s : State} (hm : s.mem.wf = true) :
    (f s).mem.wf = true := by
  rcases h.mem_cases s with ⟨addr, v, -, hmem⟩ | ⟨addr, v, -, hmem⟩ | ⟨-, hmem⟩ <;> rw [hmem]
  · exact State.wf_writeByte hm addr v
  · exact State.wf_writeByte (State.wf_writeByte hm addr (loByte v)) (addr + 1) (hiByte v)
  · exact hm

/-! ## The assembled jump -/

/-- A displacement in range is not changed by its reduction to a byte (30_encoding.md R71). -/
theorem signed_ofInt {d : Int} (hlow : -128 ≤ d) (hhigh : d ≤ 127) : signed (BitVec.ofInt 8 d) = d := by
  have hbyte := ofInt8_toNat d
  unfold signed
  split <;> omega

theorem assembleDisplacement_of_range {p target : Word} (hlow : -128 ≤ (target.toNat : Int) - ((p.toNat : Int) + 2))
    (hhigh : (target.toNat : Int) - ((p.toNat : Int) + 2) ≤ 127) :
    assembleDisplacement p target = some (BitVec.ofInt 8 ((target.toNat : Int) - ((p.toNat : Int) + 2))) :=
  if_pos ⟨hlow, hhigh⟩

/-- Settles O31: the displacement read back is the distance, so that the jump's target is the assembler's. -/
theorem assembledJumpReachesTarget : Obligations.AssembledJumpReachesTarget := by
  intro p target hlow hhigh
  refine ⟨_, assembleDisplacement_of_range hlow hhigh, ofInt8_toNat _, fun s hs => ?_⟩
  refine ⟨_, (Meaning.jumpAlways _).exec_eq s, BitVec.eq_of_toNat_eq ?_⟩
  have htarget := jumpTarget_toNat s.pc (BitVec.ofInt 8 ((target.toNat : Int) - ((p.toNat : Int) + 2)))
  rw [signed_ofInt hlow hhigh, hs] at htarget
  rw [State.jumpAlways, State.jumpTo_pc, hs]
  omega

/-! ## What a step can answer -/

theorem fetch_of_decode {s : State} {i : Instr} {rest : List Byte} (h : decode s.cfg s.fetchBytes = .ok (i, rest)) :
    s.fetch = some i := by
  simp only [State.fetch, h]

/-- Settles O32: the bytes at PC are those the step fetches. -/
theorem stepRunsDecodedInstruction : Obligations.StepRunsDecodedInstruction :=
  fun _ _ _ hrun hdecode => step_of_fetch hrun (fetch_of_decode hdecode)

/-- Settles O34: `step_faults_iff` names the opcode byte and the configuration only. -/
theorem faultDependsOnOpcodeOnly : Obligations.FaultDependsOnOpcodeOnly := by
  intro s u hs hu hcfg hbyte
  rw [step_faults_iff, step_faults_iff, and_iff_right hs, and_iff_right hu, State.opcode, hbyte, hcfg, State.opcode]

/-- A step answers a next state or the decode fault of the byte at PC; a Halted engine's answers the same state. -/
theorem step_cases (s : State) : (∃ t, step s = .next t) ∨ step s = .fault (.decodeFault s.opcode s.pc) := by
  cases hrun : s.runState with
  | halted => exact .inl ⟨s, step_of_halted hrun⟩
  | running => exact step_running_cases hrun

/-- Settles O35: the two answers of `step_cases`, and where the second is given. -/
theorem onlyDecodeFaultsOccur : Obligations.OnlyDecodeFaultsOccur := by
  intro s
  rcases step_cases s with ⟨t, hstep⟩ | hstep
  · rw [hstep]
    exact ⟨nofun, nofun, nofun⟩
  · obtain ⟨-, hnone⟩ := (step_faults_iff s).mp ⟨_, hstep⟩
    rw [hstep]
    refine ⟨fun r hr => ?_, nofun, nofun⟩
    cases hr
    exact ⟨rfl, hnone⟩

/-! ## The invariant -/

theorem mem_wf_of_step {s t : State} (hm : s.mem.wf = true) (h : step s = .next t) : t.mem.wf = true := by
  rcases step_next_cases h with ⟨-, rfl⟩ | ⟨-, _, -, hexec⟩
  · exact hm
  · obtain ⟨f, hf, rfl⟩ := exec_next_cases hexec
    exact hf.mem_wf hm

/-- Settles O37: instructions store through `writeByte` only, and none writes the configuration. -/
theorem stepKeepsInvariant : Obligations.StepKeepsInvariant := by
  rintro s t ⟨hm, hbudget⟩ h
  have hcfg := cfg_of_step h
  exact ⟨⟨mem_wf_of_step hm h, by rwa [hcfg]⟩, hcfg⟩

/-- A created engine has the invariant where construction accepts its budget (60_exceptions.md R204). -/
theorem inv_create {cfg : Config} (h : 1 ≤ cfg.budget) : (State.create cfg).Inv := ⟨mem_wf_create cfg, h⟩

theorem counterBounded_create (cfg : Config) : (State.create cfg).CounterBounded := Nat.zero_le _

/-- Settles O38: the default budget is at least 1. -/
theorem resetHasInvariant : Obligations.ResetHasInvariant := ⟨inv_create (by decide), counterBounded_create _⟩

/-- Settles O40: a pair is two registers, a flag a bit of one, and an address that is not listed reads 0x00. -/
theorem resetValues : Obligations.ResetValues := by
  have hword : wordOf 0 0 = 0 := by decide
  refine ⟨rfl, fun cfg => ⟨r8_create cfg, fun r => ?_, fun _ => BitVec.getLsbD_zero, rfl, readByte_create cfg, rfl, rfl,
    rfl⟩⟩
  cases r with
  | sp => rfl
  | bc | de | hl => exact hword

end Sys2Proof.Proofs

/-! Frames and runs of the host (49_engine.md, 10_state.md R26): the bounds of a frame, the frame in an image of NOPs,
and what every sequence of host actions keeps. A frame is followed through `runFrame_ends`, as the run of its steps. -/

namespace Sys2Proof.Proofs

open Sys2Proof Sys2Proof.Machine Sys2Proof.Claims

/-! ## Frames that run no step, and steps of a Halted engine -/

/-- Settles O48: the loop tests the counter before its first step. -/
theorem fullCounterRunsNoStep : Obligations.FullCounterRunsNoStep := by
  intro s hrun hfull
  rw [runFrame, if_neg (by simp [hrun]), frameLoop_of_full hfull, frameEnd]

theorem steps_of_halted {s : State} (h : s.runState = .halted) : ∀ n, Steps n s s
  | 0 => (steps_zero s s).mpr rfl
  | n + 1 => (steps_succ n s s).mpr ⟨s, step_of_halted h, steps_of_halted h n⟩

/-- Settles O56: a step of a Halted engine answers the same state. -/
theorem haltedStepsChangeNothing : Obligations.HaltedStepsChangeNothing :=
  fun _ h => ⟨steps_of_halted h, State.hostStep_of_halted h⟩

/-! ## The counter over the steps of a frame -/

theorem step_adds_at_most_twenty {s t : State} (h : step s = .next t) : t.frameCycles ≤ s.frameCycles + 20 := by
  cases hrun : s.runState with
  | halted =>
    rw [step_of_halted hrun] at h
    cases h
    omega
  | running =>
    obtain ⟨cost, hcost, ht⟩ := step_adds_cost hrun h
    have htwenty : cost ≤ 20 := by fin_cases hcost <;> decide
    omega

/-- The largest cost bounds from below how many steps a frame needs (49_engine.md R190). -/
theorem FrameSteps.cycles_le {n : Nat} {s u : State} (h : FrameSteps n s u) :
    u.frameCycles ≤ s.frameCycles + 20 * n := by
  induction h with
  | zero => omega
  | succ _ _ hstep _ ih =>
    have hcost := step_adds_at_most_twenty hstep
    omega

/-- A step is taken below the budget only, so it ends within its cost of it (10_state.md R26). -/
theorem FrameSteps.counterBounded {n : Nat} {s u : State} (h : FrameSteps n s u) (hs : s.CounterBounded) :
    u.CounterBounded := by
  induction h with
  | zero => exact hs
  | succ _ hbelow hstep _ ih =>
    have hcost := step_adds_at_most_twenty hstep
    apply ih
    rw [State.CounterBounded, cfg_of_step hstep]
    omega

/-- Settles O50: the counter at the frame's end is in its bound, and the costs bound the steps from both sides. -/
theorem completedFrameBounds : Obligations.CompletedFrameBounds := by
  intro s hbudget hzero hcomplete
  cases hrun : s.runState with
  | halted =>
    rw [runFrame_of_halted hrun] at hcomplete
    cases hcomplete
  | running =>
    obtain ⟨n, u, hsteps, hends⟩ := runFrame_ends hrun
    have hbounded : s.CounterBounded := hzero.trans_le (Nat.zero_le _)
    have hcounter := hsteps.counterBounded hbounded
    have hcycles := hsteps.cycles_le
    have hmost := runFrame_steps_le s
    rw [State.CounterBounded, hsteps.cfg_eq] at hcounter
    rw [hends.steps_eq] at hmost
    rw [hends.total_eq, hends.steps_eq]
    generalize runFrame s = res at hends hcomplete
    cases hends with
    | complete _ hfull =>
      rw [hsteps.cfg_eq] at hfull
      omega
    | halted | fault => cases hcomplete

/-- What the end of a frame leaves alone; the counter keeps its value or is zeroed (49_engine.md R186, R187). -/
theorem FrameEnds.state_keeps {n : Nat} {u : State} {res : FrameResult} (h : FrameEnds n u res) :
    res.state.mem = u.mem ∧ res.state.cfg = u.cfg ∧ res.state.frameCycles ≤ u.frameCycles := by
  cases h with
  | complete => exact ⟨rfl, rfl, Nat.zero_le _⟩
  | halted | fault => exact ⟨rfl, rfl, le_refl _⟩

/-- What a frame leaves is, in memory and configuration, a state its steps led to, with the counter at most there. -/
theorem runFrame_state_cases (s : State) : ∃ n u, FrameSteps n s u ∧ (runFrame s).total = u.frameCycles ∧
    (runFrame s).state.mem = u.mem ∧ (runFrame s).state.cfg = u.cfg ∧
    (runFrame s).state.frameCycles ≤ u.frameCycles := by
  cases hrun : s.runState with
  | halted =>
    rw [runFrame_of_halted hrun]
    exact ⟨0, s, .zero s, rfl, rfl, rfl, le_refl _⟩
  | running =>
    obtain ⟨n, u, hsteps, hends⟩ := runFrame_ends hrun
    exact ⟨n, u, hsteps, hends.total_eq, hends.state_keeps⟩

theorem cfg_runFrame (s : State) : (runFrame s).state.cfg = s.cfg := by
  obtain ⟨n, u, hsteps, -, -, hcfg, -⟩ := runFrame_state_cases s
  rw [hcfg, hsteps.cfg_eq]

/-- Settles O53: `FrameSteps.counterBounded`, and the end of a frame does not raise the counter. -/
theorem frameKeepsCounterBound : Obligations.FrameKeepsCounterBound := by
  intro s hs
  obtain ⟨n, u, hsteps, htotal, -, -, hcycles⟩ := runFrame_state_cases s
  have hu := hsteps.counterBounded hs
  rw [State.CounterBounded, hsteps.cfg_eq] at hu
  rw [htotal, State.CounterBounded, cfg_runFrame]
  exact ⟨hcycles.trans hu, hu⟩

/-! ## The image of NOPs (49_engine.md R190) -/

/-- A Running engine whose every memory byte is 0x00, with 0x00 as NOP. -/
structure NopImage (s : State) : Prop where
  running : s.runState = .running
  nop : s.cfg.decodeByte 0x00 = some .nop
  bytes : ∀ addr, s.readByte addr = 0x00

/-- The state after `n` NOPs. -/
def afterNops (n : Nat) (s : State) : State :=
  { s with pc := s.pc + BitVec.ofNat 16 n, frameCycles := s.frameCycles + 4 * n }

theorem afterNops_zero (s : State) : afterNops 0 s = s := by simp [afterNops]

theorem afterNops_retire (n : Nat) (s : State) : afterNops n (s.retire 1 4) = afterNops (n + 1) s := by
  have hpc : s.pc + BitVec.ofNat 16 1 + BitVec.ofNat 16 n = s.pc + BitVec.ofNat 16 (n + 1) := by
    rw [Nat.add_comm n, BitVec.ofNat_add, BitVec.add_assoc]
  have hcycles : s.frameCycles + 4 + 4 * n = s.frameCycles + 4 * (n + 1) := by omega
  rw [afterNops, afterNops, State.retire_pc, State.retire_frameCycles, hpc, hcycles, State.retire]

theorem NopImage.step_eq {s : State} (h : NopImage s) : step s = .next (s.retire 1 4) := by
  have hdec : s.cfg.decodeByte s.opcode = some .nop := by rw [State.opcode, h.bytes, h.nop]
  rw [step_of_fetch h.running (fetch_of_decodeByte_nop hdec), Meaning.nop.exec_eq]

theorem NopImage.retire {s : State} (h : NopImage s) : NopImage (s.retire 1 4) := ⟨h.running, h.nop, h.bytes⟩

theorem NopImage.afterNops {s : State} (h : NopImage s) (n : Nat) : NopImage (afterNops n s) :=
  ⟨h.running, h.nop, h.bytes⟩

theorem FrameSteps.eq_afterNops {n : Nat} {s u : State} (h : FrameSteps n s u) (hs : NopImage s) :
    u = afterNops n s := by
  induction h with
  | zero s => rw [afterNops_zero]
  | succ _ _ hstep _ ih =>
    rw [hs.step_eq] at hstep
    cases hstep
    rw [ih hs.retire, afterNops_retire]

/-- Settles O51: the steps are NOPs, so the frame neither halts nor faults, and the step at which the counter meets the
budget is the first at which four times the steps do. -/
theorem nopImageFrame : Obligations.NopImageFrame := by
  intro s hrun hzero hnop hbytes
  have hs : NopImage s := ⟨hrun, hnop, hbytes⟩
  obtain ⟨n, u, hsteps, hends⟩ := runFrame_ends hrun
  have hcost := hsteps.cost_le
  obtain rfl := hsteps.eq_afterNops hs
  have hu := hs.afterNops n
  generalize runFrame s = res at hends
  cases hends with
  | halted hhalted => exact absurd (hu.running.symm.trans hhalted) (by decide)
  | fault _ _ hfault =>
    rw [hu.step_eq] at hfault
    cases hfault
  | complete _ hfull =>
    have hmet : s.cfg.budget ≤ s.frameCycles + 4 * n := hfull
    obtain rfl : n = (s.cfg.budget + 3) / 4 := by omega
    simp [frameEnd, afterNops, hzero]

/-! ## Host actions -/

/-- A property each action of a run keeps holds after the run. -/
theorem applyAll_induction {P : State → Prop} {acts : List HostAction}
    (hact : ∀ act ∈ acts, ∀ s, P s → P (s.apply act)) {s : State} (hs : P s) : P (s.applyAll acts) := by
  induction acts generalizing s with
  | nil => exact hs
  | cons act acts ih =>
    obtain ⟨hfirst, hrest⟩ := List.forall_mem_cons.mp hact
    exact ih hrest (hfirst s hs)

/-- A host's single step leaves what the step answers, or Halted. -/
theorem hostStep_cases (s : State) : step s = .next s.hostStep ∨ s.hostStep = { s with runState := .halted } := by
  rcases step_cases s with ⟨t, hstep⟩ | hstep
  · exact .inl (by rw [State.hostStep_of_next hstep, hstep])
  · exact .inr (State.hostStep_of_fault hstep)

/-- Settles O57: after a fault the engine is Halted, and every action but reset leaves it so. -/
theorem hostStepRunsOneStep : Obligations.HostStepRunsOneStep := by
  refine fun s => ⟨fun t => State.hostStep_of_next, fun r => State.hostStep_of_fault, fun hrun hnone acts hacts => ?_⟩
  have hhalted : (s.apply .step).runState = .halted := by
    rw [State.apply, State.hostStep_of_fault (step_of_no_handler hrun hnone)]
  refine applyAll_induction (P := fun t => t.runState = .halted) (fun act hact t ht => ?_) hhalted
  exact apply_of_halted ht fun e => hacts (e ▸ hact)

theorem load_cases (s : State) (image : List Byte) : s.apply (.load image) = s ∨
    image.length ≤ 65536 ∧ s.apply (.load image) = { s with mem := Memory.writeBytes 0 image s.mem } := by
  by_cases hlen : image.length ≤ 65536
  · exact .inr ⟨hlen, by simp only [State.apply, load_of_fits hlen]⟩
  · exact .inl (by simp only [State.apply, load_of_too_long (Nat.lt_of_not_le hlen)])

/-- No host action writes the configuration (10_state.md R27). -/
theorem cfg_apply (s : State) (act : HostAction) : (s.apply act).cfg = s.cfg := by
  cases act with
  | load image => rcases load_cases s image with h | ⟨-, h⟩ <;> rw [h]
  | runFrame => exact cfg_runFrame s
  | step =>
    rcases hostStep_cases s with h | h
    · exact cfg_of_step h
    · rw [State.apply, h]
  | writeR8 r v => exact s.setR8_cfg r _
  | writeR16 r v => exact s.setR16_cfg r _
  | writePC | writeFlag | writeByte | reset => rfl

theorem FrameSteps.mem_wf {n : Nat} {s u : State} (h : FrameSteps n s u) (hm : s.mem.wf = true) :
    u.mem.wf = true := by
  induction h with
  | zero => exact hm
  | succ _ _ hstep _ ih => exact ih (mem_wf_of_step hm hstep)

/-- Every host action keeps the canonical form: a load writes below 65,536, a write to memory one address. -/
theorem mem_wf_apply {s : State} (hm : s.mem.wf = true) (act : HostAction) : (s.apply act).mem.wf = true := by
  cases act with
  | load image =>
    rcases load_cases s image with h | ⟨hlen, h⟩ <;> rw [h]
    · exact hm
    · exact Memory.wf_writeBytes image 0 (by omega) hm
  | runFrame =>
    obtain ⟨n, u, hsteps, -, hmem, -⟩ := runFrame_state_cases s
    rw [State.apply, hmem]
    exact hsteps.mem_wf hm
  | step =>
    rcases hostStep_cases s with h | h
    · exact mem_wf_of_step hm h
    · rw [State.apply, h]
      exact hm
  | writeR8 r v =>
    rw [State.apply, State.hostWriteR8, State.setR8_mem]
    exact hm
  | writeR16 r v =>
    rw [State.apply, State.hostWriteR16, State.setR16_mem]
    exact hm
  | writePC | writeFlag => exact hm
  | writeByte addr v => exact State.wf_writeByte hm addr _
  | reset => exact mem_wf_create s.cfg

theorem inv_apply {s : State} (hs : s.Inv) (act : HostAction) : (s.apply act).Inv := by
  obtain ⟨hm, hbudget⟩ := hs
  exact ⟨mem_wf_apply hm act, by rwa [cfg_apply]⟩

/-- No host action but a frame and a single step raises the counter. -/
theorem frameCycles_apply_le {act : HostAction} (hact : act ∉ [HostAction.runFrame, .step]) (s : State) :
    (s.apply act).frameCycles ≤ s.frameCycles := by
  cases act with
  | load image => rcases load_cases s image with h | ⟨-, h⟩ <;> rw [h]
  | writeR8 r v => exact (s.setR8_frameCycles r _).le
  | writeR16 r v => exact (s.setR16_frameCycles r _).le
  | writePC | writeFlag | writeByte => exact le_refl s.frameCycles
  | reset => exact Nat.zero_le _
  | runFrame | step => exact absurd (by decide) hact

theorem frameCycles_hostStep_le (s : State) : s.hostStep.frameCycles ≤ s.frameCycles + 20 := by
  rcases hostStep_cases s with h | h
  · exact step_adds_at_most_twenty h
  · rw [h]
    exact Nat.le_add_right ..

theorem counterBounded_apply {act : HostAction} (hact : act ≠ .step) {s : State} (hs : s.CounterBounded) :
    (s.apply act).CounterBounded := by
  by_cases hframe : act = .runFrame
  · rw [hframe]
    exact (frameKeepsCounterBound s hs).1
  · rw [State.CounterBounded, cfg_apply]
    exact (frameCycles_apply_le (by simp [hframe, hact]) s).trans hs

theorem construct_ok {budget : Int} {fill : Bool} {map : OpcodeMap} {halt : Option Byte} {s : State}
    (h : construct budget fill map halt = .ok s) : ∃ cfg : Config, 1 ≤ cfg.budget ∧ s = State.create cfg := by
  by_cases hlow : budget < 1
  · rw [construct_of_budget_lt_one hlow] at h
    cases h
  · rw [construct_of_one_le_budget (Int.not_lt.mp hlow)] at h
    cases h
    refine ⟨_, ?_, rfl⟩
    change 1 ≤ budget.toNat
    omega

/-! ## Runs of the host -/

theorem inv_applyAll {s : State} (hs : s.Inv) (acts : List HostAction) : (s.applyAll acts).Inv :=
  applyAll_induction (P := State.Inv) (fun act _ _ ht => inv_apply ht act) hs

theorem cfg_applyAll (s : State) (acts : List HostAction) : (s.applyAll acts).cfg = s.cfg :=
  applyAll_induction (P := fun t => t.cfg = s.cfg) (fun act _ t ht => (cfg_apply t act).trans ht) rfl

theorem counterBounded_applyAll {s : State} (hs : s.CounterBounded) {acts : List HostAction}
    (hacts : HostAction.step ∉ acts) : (s.applyAll acts).CounterBounded :=
  applyAll_induction (P := State.CounterBounded)
    (fun _ hact _ ht => counterBounded_apply (fun e => hacts (e ▸ hact)) ht) hs

/-- Settles O39: what one action keeps, a run keeps; a constructed engine has a budget of at least 1 and counter 0. -/
theorem hostRunsKeepInvariant : Obligations.HostRunsKeepInvariant := by
  refine ⟨fun s act hs => ⟨inv_apply hs act, cfg_apply s act, fun hact hbound => counterBounded_apply hact hbound,
    frameCycles_hostStep_le s⟩, fun budget fill map halt s acts h => ?_⟩
  obtain ⟨cfg, hbudget, rfl⟩ := construct_ok h
  exact ⟨inv_applyAll (inv_create hbudget) acts, cfg_applyAll _ acts,
    fun hacts => counterBounded_applyAll (counterBounded_create cfg) hacts⟩

end Sys2Proof.Proofs

/-! What a run does not depend on: the budget (49_engine.md R194) and the counter (10_state.md R29). Each is a relation
between two states that every step keeps. -/

namespace Sys2Proof.Proofs

open Sys2Proof Sys2Proof.Machine Sys2Proof.Claims

/-! ## Relations that steps keep -/

/-- Two engines in the same run state that fetch the same instruction step alike, where every instruction's operation
keeps the relation between them. -/
theorem step_simulation {R : State → State → Prop} {s u t : State} (hR : R s u) (hrun : u.runState = s.runState)
    (hfetch : u.fetch = s.fetch) (hop : ∀ i f, Meaning i f → R (f s) (f u)) (h : step s = .next t) :
    ∃ v, step u = .next v ∧ R t v := by
  rcases step_next_cases h with ⟨hhalted, rfl⟩ | ⟨hrunning, i, hi, hexec⟩
  · exact ⟨u, step_of_halted (hrun.trans hhalted), hR⟩
  · obtain ⟨f, hf, rfl⟩ := exec_next_cases hexec
    refine ⟨f u, ?_, hop i f hf⟩
    rw [step_of_fetch (hrun.trans hrunning) (hfetch.trans hi), hf.exec_eq]

/-- A relation every step keeps is kept by a run. -/
theorem steps_simulation {R : State → State → Prop}
    (hstep : ∀ s u t, R s u → step s = .next t → ∃ v, step u = .next v ∧ R t v) {n : Nat} {s u t : State}
    (hR : R s u) (h : Steps n s t) : ∃ v, Steps n u v ∧ R t v := by
  induction n generalizing s u with
  | zero =>
    obtain rfl := (steps_zero s t).mp h
    exact ⟨u, (steps_zero u u).mpr rfl, hR⟩
  | succ n ih =>
    obtain ⟨s', hs, hrest⟩ := (steps_succ n s t).mp h
    obtain ⟨u', hu, hR'⟩ := hstep s u s' hR hs
    obtain ⟨v, hv, hRv⟩ := ih hR' hrest
    exact ⟨v, (steps_succ n u v).mpr ⟨u', hu, hv⟩, hRv⟩

/-! ## The budget -/

/-- Decoding does not look at the budget. -/
theorem fetch_withBudget (s : State) (budget : Nat) : (withBudget s budget).fetch = s.fetch := rfl

theorem Meaning.withBudget {i : Instr} {f : State → State} (h : Meaning i f) (s : State) (budget : Nat) :
    f (withBudget s budget) = withBudget (f s) budget := by
  cases h with
  | nop | stop | halt | storeSP | rotateLeftA | clearA | jumpAlways => rfl
  | loadImm16 row _ | loadImm8 row _ | storeA row | loadA row | incR8 row | decR8 row | incR16 row | decR16 row
  | addHL row => fin_cases row <;> rfl
  | jumpIf => simp only [State.jumpIf_effect, Claims.withBudget]

/-- Settles O54: to differ by the budget alone is kept by every step. -/
theorem budgetNeverChangesSteps : Obligations.BudgetNeverChangesSteps := by
  intro n s t budget h
  have hstep (s u t : State) (hu : u = withBudget s budget) (hs : step s = .next t) :
      ∃ v, step u = .next v ∧ v = withBudget t budget := by
    subst hu
    exact step_simulation (R := fun s u => u = withBudget s budget) rfl rfl (fetch_withBudget s budget)
      (fun i f hf => hf.withBudget s budget) hs
  obtain ⟨v, hv, rfl⟩ := steps_simulation hstep rfl h
  exact hv

/-! ## The counter -/

theorem Meaning.withFrameCycles {i : Instr} {f : State → State} (h : Meaning i f) (s : State) (k : Nat) :
    ∃ m, f { s with frameCycles := k } = { f s with frameCycles := m } := by
  cases h with
  | nop | stop | halt | storeSP | rotateLeftA | clearA | jumpAlways => exact ⟨_, rfl⟩
  | loadImm16 row _ | loadImm8 row _ | storeA row | loadA row | incR8 row | decR8 row | incR16 row | decR16 row
  | addHL row => fin_cases row <;> exact ⟨_, rfl⟩
  | @jumpIf _ cc => exact ⟨k + if condHolds s.f cc then 12 else 8, by simp only [State.jumpIf_effect]⟩

/-- Settles O55: to differ in the counter alone is kept by every step. -/
theorem counterIsUnobservable : Obligations.CounterIsUnobservable := by
  intro n s t k h
  have hstep (s u t : State) (hu : ∃ k, u = { s with frameCycles := k }) (hs : step s = .next t) :
      ∃ v, step u = .next v ∧ ∃ m, v = { t with frameCycles := m } := by
    obtain ⟨k, rfl⟩ := hu
    exact step_simulation (R := fun s u => ∃ k, u = { s with frameCycles := k }) ⟨k, rfl⟩ rfl rfl
      (fun i f hf => hf.withFrameCycles s k) hs
  obtain ⟨v, hv, m, rfl⟩ := steps_simulation hstep ⟨k, rfl⟩ h
  exact ⟨m, hv⟩

end Sys2Proof.Proofs
